-- ==== Sys2Proof/Word.lean ====
section
/-! DEFINITION. The machine's units of data: the byte (R10), the 128-byte block (R7, R40), and the random
number of a backoff (R170). The registers whose widths R9 leaves to the model are natural numbers, bounded by the
parameters of Config.lean. -/

namespace Sys2Proof

/-- R10: a byte is 8 bits, an unsigned integer 0 to 255. -/
abbrev Byte := BitVec 8

/-- A payload block: exactly 128 bytes, the typed port of R132. -/
structure Block where
  bytes : List Byte
  len : bytes.length = 128
deriving DecidableEq, Repr

/-- The random input `u` of a backoff, `0 <= u < 1` (R170), as the fraction `a / (a + b + 1)`: every rational of
that range and no other number. -/
structure Rand where
  a : Nat
  b : Nat
deriving DecidableEq, Repr, Inhabited

end Sys2Proof
end

