-- ==== Sys2Proof/Config.lean ====
section
/-! DEFINITION. The constants the source fixes (R7), the parameters the spec adds (R9, log entry 1), the reset
values of the configuration registers (R8), and the FREE VALUES: constants without a body, so that no proof can see
what they are. -/

namespace Sys2Proof.Config

/-- R7: bytes in every payload block. -/
abbrev BLOCK_SIZE : Nat := 128
/-- R7: bytes in every frame. -/
abbrev FRAME_SIZE : Nat := 132
/-- R7: the header byte. -/
abbrev SOH : Byte := 0x01
/-- R7: the positive acknowledgment byte. -/
abbrev ACK : Byte := 0x06
/-- R7: the negative acknowledgment byte. -/
abbrev NAK : Byte := 0x15
/-- R7: the padding byte of the final short block. -/
abbrev PAD : Byte := 0x1A
/-- R7: the smallest wire block index. -/
abbrev WIDX_MIN : Nat := 1
/-- R7: the largest wire block index. -/
abbrev WIDX_MAX : Nat := 255

/-- R8: reset value of `RETRY_CEILING`. -/
abbrev RETRY_CEILING_DEFAULT : Nat := 10
/-- R8, in time-units. -/
abbrev RESP_TIMEOUT_DEFAULT : Rat := 27 / 10
/-- R8, in time-units. -/
abbrev FINAL_WAIT_DEFAULT : Rat := 3
/-- R8, in time-units. -/
abbrev PACE_DELAY_DEFAULT : Rat := 3 / 100
/-- R8, in time-units. -/
abbrev BACKOFF_BASE_DEFAULT : Rat := 1 / 10
/-- R8. -/
abbrev BACKOFF_DIV_DEFAULT : Rat := 70

/-- R9: the physical length of one time-unit, OPEN in the spec (D11); no rule that writes state reads it. -/
opaque TIME_UNIT : Rat

/-- FREE VALUE (R214, log entry 3): the transport's answer to the `n`-th unscripted `RX_CLEAR`, `true` for success. -/
opaque freeClear : Nat → Bool
/-- FREE VALUE (R214, log entry 3): the transport's answer to an unscripted `TX_WRITE`, `true` for success. -/
opaque freeWrite : Nat → Bool
/-- FREE VALUE (R214, log entry 3): what an unscripted response read meets: `none` a transport fault, `some bs` the
bytes that reach the pending input by its end. -/
opaque freeRead : Nat → Option (List Byte)
/-- FREE VALUE (R214, log entry 3): the same for an unscripted trailing read. -/
opaque freeTail : Nat → Option (List Byte)
/-- FREE VALUE (R28, log entry 4): what an engine step adds to `ELAPSED`. -/
opaque freeElapse : Nat → Nat
/-- FREE VALUE (R170, log entry 5): the random number of a backoff. -/
opaque freeRandom : Nat → Rand
/-- FREE VALUE (R39, log entry 6): a byte of `FILE` that the host has not written since reset number `n`. -/
opaque freeFile : (n address : Nat) → Byte
/-- FREE VALUE (R41, log entry 6): a byte of `TRAIL` at or beyond `TRAIL_LEN`. -/
opaque freeTrail : (n address : Nat) → Byte

end Sys2Proof.Config

namespace Sys2Proof

/-- R9: the parameters of the block, each a named argument of the model (log entry 1). `TIME_UNIT`, the remaining
one, is `Config.TIME_UNIT`. -/
structure Parameters where
  /-- `CURSOR_BITS`: the width of `CURSOR` and `NBLK` in bits. -/
  cursorBits : Nat
  /-- `LEN_BITS`: the width of `FILE_LEN` in bits. -/
  lenBits : Nat
  /-- `FILE_CAP`: the largest file length in bytes. -/
  fileCap : Nat
  /-- `RPT_BITS`: the width of `RPT` and `RETRY_CEILING` in bits. -/
  rptBits : Nat
  /-- `TRAIL_CAP`: the capacity of the trailing buffer in bytes, "at most 65535". -/
  trailCap : Fin 65536
  /-- `ELAPSED_BITS`: the width of `ELAPSED` in bits. -/
  elapsedBits : Nat
deriving DecidableEq, Repr

/-- R9: the defaults, with `FILE_CAP` as conflict C10 settles it. -/
def Parameters.default : Parameters where
  cursorBits := 32
  lenBits := 32 + 7
  fileCap := 128 * (2 ^ 32 - 1)
  rptBits := 8
  trailCap := 256
  elapsedBits := 32

/-- R9, R24: parameters for which no register overflows: a file of `FILE_CAP` bytes has a block count and a length that
fit, the one block of the empty file fits, and so does the reset value of `RETRY_CEILING`. -/
structure Parameters.Legal (q : Parameters) : Prop where
  fileCap_blocks : q.fileCap ≤ 128 * (2 ^ q.cursorBits - 1)
  fileCap_length : q.fileCap < 2 ^ q.lenBits
  one_block : 2 ≤ 2 ^ q.cursorBits
  ceiling_default : Config.RETRY_CEILING_DEFAULT + 2 ≤ 2 ^ q.rptBits

end Sys2Proof
end

