-- ==== Sys2Proof/Syntax.lean ====
section
/-! DEFINITION. The syntax: one constructor of `Instr` for every row of spec/opcode_table.json, with the operands the
row's rule gives it. The block has no instruction set (R20, R21): an "instruction" is a named operation of files 40 to
42 or an item of the line (R110). -/

namespace Sys2Proof

/-- The three operations of the transport contract (R210), as `EV_FAULT(op)` names them (R178). -/
inductive TransportOp where
  | rxClear
  | txWrite
  | rxRead
deriving DecidableEq, Repr

/-- The host's ways of writing the file (R202): the whole file, or one byte of `FILE`, or `FILE_LEN` alone. -/
inductive Load where
  | whole (s : List Byte)
  | byte (a : Nat) (b : Byte)
  | length (n : Nat)
deriving DecidableEq, Repr

/-- The host's register writes: the six registers of R203 and `STATUS`, a write to which is ignored (R34). -/
inductive CfgWrite where
  | retryCeiling (v : Nat)
  | respTimeout (d : Rat)
  | finalWait (d : Rat)
  | paceDelay (d : Rat)
  | backoffBase (d : Rat)
  | backoffDiv (d : Rat)
  | status (v : BitVec 16)
deriving DecidableEq, Repr

/-- What the host may read by name: the "host access" column of R45. -/
inductive HostReg where
  | status | phase | outcome | cause | cursor | rpt | nblk | elapsed | trailLen
  | fileLen | retryCeiling | respTimeout | finalWait | paceDelay | backoffBase | backoffDiv
  | file (a : Nat)
  | trail (k : Nat)
deriving DecidableEq, Repr

/-- `H_STATUS` (R205) and the host's read of one register or memory byte by name (R77, R45). -/
inductive StatusForm where
  | poll
  | reg (r : HostReg)
deriving DecidableEq, Repr

/-- The operations, one constructor per row of spec/opcode_table.json, in the table's order. -/
inductive Instr where
  /-- `FRAME` (R90): a frame on the line; `CMPL` and `CKS` are functions of the two operands (R92). -/
  | frame (idx : Byte) (p : Block)
  /-- `ACK` (R96): the control byte `0x06`. -/
  | ack
  /-- `NAK` (R96): the control byte `0x15`. -/
  | nak
  /-- `OTHER` (R96): any other control byte. -/
  | other (b : Byte)
  /-- `TIMEOUT` (R96): no byte. -/
  | timeout
  /-- `PAD(g)` (R121). -/
  | pad (g : List Byte)
  /-- `NBLK_OF(N)` (R122). -/
  | nblkOf (n : Nat)
  /-- `CHUNK(FILE, N)` (R123). -/
  | chunk (n : Nat)
  /-- `WIDX(i)` (R126). -/
  | widx (i : Nat)
  /-- `CHECKSUM(p)` (R128). -/
  | checksum (p : Block)
  /-- `BUILD_FRAME(idx, p)` (R130). -/
  | buildFrame (idx : Byte) (p : Block)
  /-- `BUILD_FRAME_RAW(idx, s)` (R132): a wider index and a payload of any length. -/
  | buildFrameRaw (idx : Nat) (s : List Byte)
  /-- `FRAME_OF(i)` (R133). -/
  | frameOf (i : Nat)
  /-- `E_START` (R152). -/
  | eStart
  /-- `E_SEND` (R155). -/
  | eSend
  /-- `E_RESP_ACK` (R158). -/
  | eRespAck
  /-- `E_RESP_NAK` (R159). -/
  | eRespNak
  /-- `E_RESP_OTHER` (R160), with the byte the read answered. -/
  | eRespOther (b : Byte)
  /-- `E_RESP_TIMEOUT` (R161). -/
  | eRespTimeout
  /-- `E_BACKOFF` (R170), with its random input. -/
  | eBackoff (u : Rand)
  /-- `E_PACE` (R172). -/
  | ePace
  /-- `E_DRAIN` (R175). -/
  | eDrain
  /-- `E_FAULT` (R178), with the operation that answered with a transport fault. -/
  | eFault (op : TransportOp)
  /-- `H_RESET` (R201). -/
  | hReset
  /-- `H_LOAD(s)` (R202). -/
  | hLoad (l : Load)
  /-- `H_CFG(reg, v)` (R203). -/
  | hCfg (c : CfgWrite)
  /-- `H_START` (R204). -/
  | hStart
  /-- `H_STATUS` (R205). -/
  | hStatus (f : StatusForm)
  /-- `H_RESULT` (R206). -/
  | hResult
  /-- `TX_WRITE(s)` (R211). -/
  | txWrite (s : List Byte)
  /-- `RX_READ(n, T)` (R212). -/
  | rxRead (n : Nat) (t : Rat)
  /-- `RX_CLEAR()` (R213). -/
  | rxClear
deriving DecidableEq, Repr

/-- Why a byte sequence is no item of the line. -/
inductive DecodeError where
  /-- neither 0, 1 nor 132 bytes (R96, R98: "Frame lengths other than 132 do not exist"). -/
  | badLength (n : Nat)
  /-- 132 bytes that do not begin with `0x01` (R90). -/
  | badHeader (b : Byte)
  /-- byte 2 is not `255 - IDX` (R92). -/
  | badComplement (idx cmpl : Byte)
  /-- byte 131 is not the payload's sum modulo 256 (R92). -/
  | badChecksum (cks : Byte)
deriving DecidableEq, Repr

end Sys2Proof
end

