-- ==== Sys2Proof/Machine/State.lean ====
section
/-! DEFINITION. The state of the block and of what its rules touch outside it, as plain data; the reset state; the
reasons a step can stop. -/

namespace Sys2Proof.Machine

/-- `PHASE` (R30); code 7 is never held (R98), so it has no name here. -/
inductive Phase where
  | idle | send | wait | backoff | pace | drain | done
deriving DecidableEq, Repr

/-- `OUTCOME` (R29). -/
inductive SessionOutcome where
  | none | completed | aborted | fault
deriving DecidableEq, Repr

/-- `CAUSE` (R29, R105); the engine never produces the last two (R232, R233). -/
inductive Cause where
  | none | retryExhausted | transportFault | invalidPayloadSize | emptyInput
deriving DecidableEq, Repr

/-- The class of a response with the byte that `EV_READ` records (R96, R158 to R161). -/
inductive Response where
  | ack | nak | other (b : Byte) | timeout
deriving DecidableEq, Repr

/-- The kinds of `Sleep` (R11). -/
inductive SleepKind where
  | backoff | pace | final
deriving DecidableEq, Repr

/-- The events of `HIST` (R43). -/
inductive Event where
  | clear
  | write (f : List Byte)
  | read (r : Response)
  | sleep (k : SleepKind)
  | drain (t : List Byte)
  | fault (op : TransportOp)
deriving DecidableEq, Repr

/-- The two uses of `RX_READ` (R212): the response read of one byte, and the trailing read. -/
inductive ReadUse where
  | response | trailing
deriving DecidableEq, Repr

/-- What the time base is asked to time: a `Sleep` or the bounded wait of a read (R11, R246). -/
inductive WaitKind where
  | sleep (k : SleepKind)
  | read
deriving DecidableEq, Repr

/-- A wait asked of the time base, in time-units (R37: the duration argument of `Sleep` and `RxRead`). -/
structure Wait where
  kind : WaitKind
  duration : Rat
deriving DecidableEq, Repr

/-- The value of one register or memory byte, as the host reads it by name (R77). -/
inductive RegValue where
  | word (n : Nat)
  | duration (q : Rat)
  | byte (b : Byte)
deriving DecidableEq, Repr

/-- The result of `H_STATUS` (R205). -/
structure StatusView where
  status : BitVec 16
  cursor : Nat
  rpt : Nat
  nblk : Nat
  elapsed : Nat
deriving DecidableEq, Repr

/-- The result of `H_RESULT` (R206). -/
structure ResultView where
  cursor : Nat
  nblk : Nat
  elapsed : Nat
  trail : List Byte
  trailLen : BitVec 16
  outcome : SessionOutcome
  cause : Cause
deriving DecidableEq, Repr

/-- What an operation answers to whoever asked for it: the result of a Framer function, of a host read, of a transport
operation. The model's own observation (log entry 7): no operation reads it. -/
inductive Answer where
  | none
  | block (p : Block)
  | count (n : Nat)
  | blocks (bs : List Block)
  | byte (b : Byte)
  | frame (f : List Byte)
  | status (v : StatusView)
  | reg (v : RegValue)
  | result (v : ResultView)
  | success
  | received (r : List Byte)
  | transportFault
deriving DecidableEq, Repr

/-- Who moves next, the agents of R13 seen from outside: the engine, an operation offered by name (by the host, R200,
or at a raw port, R132), or an item on the line, as bytes (log entry 2). -/
inductive Turn where
  | engine
  | offer (i : Instr)
  | line (bs : List Byte)
deriving DecidableEq, Repr

/-- A memory space: the bytes that have a value, addresses strictly rising. An unlisted address has no value. -/
abbrev Memory := List Host.Cell

/-- The session registers (R25 to R32). R9: "A model may use unbounded natural numbers for every counter"; each stays
below 2 to its width (`State.SessionOk`). -/
structure Session where
  /-- `PHASE`, 3 bits (R30). -/
  phase : Phase
  /-- `OUTCOME`, 2 bits (R29). -/
  outcome : SessionOutcome
  /-- `CAUSE`, 3 bits (R29). -/
  cause : Cause
  /-- `CURSOR`, `CURSOR_BITS` bits (R25). -/
  cursor : Nat
  /-- `RPT`, `RPT_BITS` bits (R26). -/
  rpt : Nat
  /-- `NBLK`, `CURSOR_BITS` bits (R27, log entry 19). -/
  nblk : Nat
  /-- `ELAPSED`, `ELAPSED_BITS` bits (R28). -/
  elapsed : Nat
  /-- `TRAIL_LEN`, 16 bits (R32). -/
  trailLen : BitVec 16
deriving DecidableEq, Repr

/-- The configuration registers (R35 to R37); durations in time-units (log entry 23). -/
structure Settings where
  /-- `FILE_LEN`, `LEN_BITS` bits (R35). -/
  fileLen : Nat
  /-- `RETRY_CEILING`, `RPT_BITS` bits (R36). -/
  retryCeiling : Nat
  /-- `RESP_TIMEOUT` (R37). -/
  respTimeout : Rat
  /-- `FINAL_WAIT` (R37). -/
  finalWait : Rat
  /-- `PACE_DELAY` (R37). -/
  paceDelay : Rat
  /-- `BACKOFF_BASE` (R37). -/
  backoffBase : Rat
  /-- `BACKOFF_DIV` (R37). -/
  backoffDiv : Rat
deriving DecidableEq, Repr

/-- The inputs of the step relation (R44, R150): what the outside world will do, oldest first. A list that is used up
is followed by free values, indexed by `draws` (log entries 3 to 5). -/
structure Env where
  /-- answers of the coming `RX_CLEAR`s, `true` for success. -/
  clears : List Bool
  /-- answers of the coming `TX_WRITE`s, `true` for success. -/
  writes : List Bool
  /-- the coming response reads: `none` a transport fault, `some bs` the bytes that reach the pending input. -/
  reads : List (Option (List Byte))
  /-- the same for the coming trailing reads. -/
  tails : List (Option (List Byte))
  /-- what the coming engine steps add to `ELAPSED`. -/
  elapses : List Nat
  /-- the random numbers of the coming backoffs. -/
  randoms : List Rand
  /-- how many free values have been drawn. -/
  draws : Nat
  /-- which free values the unwritten bytes of `FILE` hold: stepped by reset. -/
  fileEpoch : Nat
  /-- which free values the bytes of `TRAIL` beyond `TRAIL_LEN` hold: stepped when they become unspecified anew. -/
  trailEpoch : Nat
  /-- who moves next. -/
  agenda : List Turn
  /-- the reset input (R260) is asserted. -/
  resetPin : Bool
deriving DecidableEq, Repr

/-- Everything the spec gives the machine. -/
structure State where
  /-- the parameters of R9, which no step changes. -/
  par : Parameters
  ses : Session
  cfg : Settings
  /-- the `RETRY_CEILING` of the latest session (observation, log entry 12). -/
  lockedCeiling : Nat
  /-- `FILE` (R39). -/
  file : Memory
  /-- `BLK` (R40, log entry 22). -/
  blk : List Block
  /-- `TRAIL` (R41). -/
  trail : Memory
  /-- `HIST` (R43), oldest event first. -/
  hist : List Event
  /-- the waits asked of the time base since the session began, oldest first (observation, log entry 8). -/
  waits : List Wait
  /-- the result of the last operation that has one (observation, log entry 7). -/
  answer : Answer
  /-- the transport's pending input (R42), first arrived first. -/
  pending : List Byte
  /-- what the transport has been given to send, one entry a `TX_WRITE` (R211, the log of R216). -/
  sent : List (List Byte)
  env : Env
deriving DecidableEq, Repr

/-- R45, R260: the session registers after reset. -/
def Session.reset : Session where
  phase := .idle
  outcome := .none
  cause := .none
  cursor := 0
  rpt := 0
  nblk := 0
  elapsed := 0
  trailLen := 0

/-- R45, R260: the configuration registers after reset, at the defaults of R8. -/
def Settings.reset : Settings where
  fileLen := 0
  retryCeiling := Config.RETRY_CEILING_DEFAULT
  respTimeout := Config.RESP_TIMEOUT_DEFAULT
  finalWait := Config.FINAL_WAIT_DEFAULT
  paceDelay := Config.PACE_DELAY_DEFAULT
  backoffBase := Config.BACKOFF_BASE_DEFAULT
  backoffDiv := Config.BACKOFF_DIV_DEFAULT

/-- No input is fixed in advance, and no free value drawn (log entry 9). -/
def Env.initial : Env where
  clears := []
  writes := []
  reads := []
  tails := []
  elapses := []
  randoms := []
  draws := 0
  fileEpoch := 0
  trailEpoch := 0
  agenda := []
  resetPin := false

/-- R45, R260: the machine with the parameters `q` after reset. The memories list nothing: their contents are
unspecified. -/
def State.resetWith (q : Parameters) : State where
  par := q
  ses := Session.reset
  cfg := Settings.reset
  lockedCeiling := 0
  file := []
  blk := []
  trail := []
  hist := []
  waits := []
  answer := .none
  pending := []
  sent := []
  env := Env.initial

/-- R9, R260: the machine after reset, with the parameters at their defaults. -/
def State.reset : State := State.resetWith Parameters.default

/-- Why the machine stops with a fault. -/
inductive Fault where
  /-- `InvalidPayloadSize(len)` (R132, R232), raised by `BUILD_FRAME_RAW` only: the fault the spec names (log
  entry 25). Safe. -/
  | invalidPayloadSize (len : Nat)
  /-- Raised by `FRAME_OF(i)` with no block `i` in `BLK`, `i >= NBLK` (R61, R133), and by `E_SEND` in a state no run
  reaches (`CURSOR` outside `BLK`). Safe. -/
  | noSuchBlock (i : Nat)
  /-- Raised by a host access to a `FILE` address at or above `FILE_CAP` (R60). Safe. -/
  | noSuchFileByte (a : Nat)
  /-- Raised by a host read of `TRAIL` at or above `TRAIL_CAP` (R41, R62). Safe. -/
  | noSuchTrailByte (k : Nat)
  /-- Raised by `CHUNK(FILE, N)` offered by name with `N > FILE_LEN`: no rule reads `FILE` there (R60), and a model "may
  make a read of them a `fault`" (93_implementation_defined.md; log entry 26). Safe. -/
  | beyondFileLen (n : Nat)
deriving DecidableEq, Repr

/-- Why an operation has no meaning in a state. -/
inductive Refusal where
  /-- An instruction that `exec` does not model, rejected by name; no arm uses it. Safe. -/
  | notModelled (mnemonic : String)
  /-- An engine step offered by name where its "Enabled when" guard is false (R150: one enabled step a phase), with the
  phase it was offered in; the spec has no such step. Raised by the `E_` operations only. Safe. -/
  | notEnabled (p : Phase)
  /-- An operand outside the domain its rule gives it (an ill-formed term of `WellFormed`). Safe. -/
  | operandOutOfDomain
  /-- `step` was given bytes that are no item of the line (R96, R98). Safe. -/
  | undecodable (e : DecodeError)
deriving DecidableEq, Repr

/-- What a step does next: run an operation, do nothing, or reject the bytes on the line. -/
inductive Choice where
  | run (i : Instr) (s : State)
  | idle (s : State)
  | reject (e : DecodeError)
deriving DecidableEq, Repr

end Sys2Proof.Machine
end

