-- ==== Sys2Proof/Machine/Flags.lean ====
section
/-! DEFINITION. The status flags (R33), the codes of the status fields (R103 to R106), the `STATUS` view (R34), the
source's four-state view (R31) and the `done` output (R207): pure functions of the registers. -/

namespace Sys2Proof.Machine

/-- R103. -/
def Phase.code : Phase → BitVec 3
  | .idle => 0
  | .send => 1
  | .wait => 2
  | .backoff => 3
  | .pace => 4
  | .drain => 5
  | .done => 6

/-- R104. -/
def SessionOutcome.code : SessionOutcome → BitVec 2
  | .none => 0
  | .completed => 1
  | .aborted => 2
  | .fault => 3

/-- R105. -/
def Cause.code : Cause → BitVec 3
  | .none => 0
  | .retryExhausted => 1
  | .transportFault => 2
  | .invalidPayloadSize => 3
  | .emptyInput => 4

/-- R106. -/
def Response.code : Response → Nat
  | .ack => 0
  | .nak => 1
  | .other _ => 2
  | .timeout => 3

/-- R33: the phases in which a session runs. -/
def Phase.busy : Phase → Bool
  | .idle => false
  | .send => true
  | .wait => true
  | .backoff => true
  | .pace => true
  | .drain => true
  | .done => false

namespace State

/-- R33: `BUSY`. -/
def busy (s : State) : Bool := s.ses.phase.busy

/-- R33: `DONE`. -/
def done (s : State) : Bool := s.ses.phase == .done

/-- R33: `F_COMPLETED`. -/
def fCompleted (s : State) : Bool := s.done && s.ses.outcome == .completed

/-- R33: `F_ABORTED`. -/
def fAborted (s : State) : Bool := s.done && s.ses.outcome == .aborted

/-- R33: `F_FAULT`. -/
def fFault (s : State) : Bool := s.done && s.ses.outcome == .fault

/-- R207: the level output `done`, equal to the flag `DONE`. -/
def doneOutput (s : State) : Bool := s.done

/-- R34: `STATUS`, from bit 15 down: five reserved bits, `CAUSE`, a reserved bit, `PHASE`, `OUTCOME`, `DONE`, `BUSY`. -/
def statusWord (s : State) : BitVec 16 :=
  0#5 ++ s.ses.cause.code ++ 0#1 ++ s.ses.phase.code ++ s.ses.outcome.code ++ BitVec.ofBool s.done ++
    BitVec.ofBool s.busy

end State

/-- The source's states (R31), with the spec's `FAULTED`. -/
inductive SourceState where
  | awaitingResponse | advancing | completed | aborted | faulted
deriving DecidableEq, Repr

/-- R31: `STATE` of a terminal phase, by `OUTCOME`; `DRAIN` has no `FAULTED`. -/
def terminalState (p : Phase) : SessionOutcome → Option SourceState
  | .none => none
  | .completed => some .completed
  | .aborted => some .aborted
  | .fault => if p = .done then some .faulted else none

/-- R31: the function `STATE`; `none` in `IDLE` and for the combinations R31 calls unreachable. -/
def State.sourceState (s : State) : Option SourceState :=
  match s.ses.phase with
  | .idle => none
  | .send => some .awaitingResponse
  | .wait => some .awaitingResponse
  | .backoff => some .awaitingResponse
  | .pace => some .advancing
  | .drain => terminalState .drain s.ses.outcome
  | .done => terminalState .done s.ses.outcome

end Sys2Proof.Machine
end

