-- ==== Sys2Proof/Machine/Frame.lean ====
section
/-! DEFINITION. The Framer's pure functions (40_framer.md): padding, block count, chunking, wire index, checksum and
frame assembly. None reads or writes a register (R120). -/

namespace Sys2Proof.Machine

/-- R121: `PAD(g) = g ++ rep(0x1A, 128 - len(g))`. -/
def padBytes (g : List Byte) : List Byte :=
  g ++ List.replicate (Config.BLOCK_SIZE - g.length) Config.PAD

/-- A group of at most 128 bytes is padded to exactly 128. -/
theorem padBytes_length (g : List Byte) (h : g.length ≤ Config.BLOCK_SIZE) : (padBytes g).length = 128 := by
  simp only [padBytes, List.length_append, List.length_replicate]
  exact Nat.add_sub_cancel' h

/-- R121: `PAD` with its typed operand. -/
def padBlock (g : List Byte) (h : g.length ≤ Config.BLOCK_SIZE) : Block :=
  ⟨padBytes g, padBytes_length g h⟩

/-- R122: the number of blocks, 1 for the empty file. -/
def nblkOf (n : Nat) : Nat := if n = 0 then 1 else (n + 127) / 128

/-- R123: `FILE[lo .. hi]`, the bytes from `lo` up to but not including `hi`. -/
def fileSlice (file : Nat → Byte) (lo hi : Nat) : List Byte :=
  (List.range' lo (hi - lo)).map file

/-- R123: group `i` of the file has at most 128 bytes. -/
theorem fileSlice_length_le (file : Nat → Byte) (n i : Nat) :
    (fileSlice file (128 * i) (min n (128 * i + 128))).length ≤ Config.BLOCK_SIZE := by
  simp only [fileSlice, List.length_map, List.length_range', Config.BLOCK_SIZE]
  omega

/-- R123: block `i` of the file, `PAD(FILE[128*i .. min(N, 128*i + 128)])`. -/
def chunkBlock (file : Nat → Byte) (n i : Nat) : Block :=
  padBlock (fileSlice file (128 * i) (min n (128 * i + 128))) (fileSlice_length_le file n i)

/-- R123: `CHUNK(FILE, N)`, the first of its two pseudocode forms. -/
def chunk (file : Nat → Byte) (n : Nat) : List Block :=
  (List.range (nblkOf n)).map (chunkBlock file n)

/-- R126: `WIDX(i) = (i mod 255) + 1`. -/
def widx (i : Nat) : Byte := BitVec.ofNat 8 (i % 255 + 1)

/-- R128: the exact sum of the payload bytes. -/
def payloadSum (p : Block) : Nat := (p.bytes.map BitVec.toNat).sum

/-- R128: the sum modulo 256. -/
def checksum (p : Block) : Byte := BitVec.ofNat 8 (payloadSum p)

/-- R130: `[0x01] ++ [idx] ++ [255 - idx] ++ p ++ [CHECKSUM(p)]`. -/
def buildFrame (idx : Byte) (p : Block) : List Byte :=
  [Config.SOH] ++ [idx] ++ [255 - idx] ++ p.bytes ++ [checksum p]

/-- R63, R130: whether a byte sequence is a frame, `BUILD_FRAME(idx, p)` of its own byte 1 and its own payload. -/
def isFrame (s : List Byte) : Bool :=
  if h : ((s.drop 3).take 128).length = 128 then s == buildFrame (s.getD 1 0) ⟨(s.drop 3).take 128, h⟩ else false

/-- R132: `idx mod 256`, the reduction of a wider index. -/
def narrowIndex (idx : Nat) : Byte := BitVec.ofNat 8 (idx % 256)

end Sys2Proof.Machine
end

