-- ==== Sys2Proof/Machine/Ops.lean ====
section
/-! DEFINITION. The named operations over memory, registers, the event history, the inputs and the transport, and the
shared effects of the engine: taking a transport fault, advancing, a negative signal, starting a session, reset. -/

namespace Sys2Proof.Machine

namespace Memory

/-- The value of an address, if it has one. -/
def read : Memory → Nat → Option Byte
  | [], _ => none
  | (c, v) :: m, a => if c = a then some v else read m a

/-- The memory with `b` at `a`, its addresses still rising. -/
def write (a : Nat) (b : Byte) : Memory → Memory
  | [] => [(a, b)]
  | (c, v) :: m => if a < c then (a, b) :: (c, v) :: m else if a = c then (a, b) :: m else (c, v) :: write a b m

/-- The bytes of `bs` at `a`, `a + 1`, and so on. -/
def writeBytes (a : Nat) : List Byte → Memory → Memory
  | [], m => m
  | b :: bs, m => write a b (writeBytes (a + 1) bs m)

/-- The canonical form: addresses strictly rising. (An unlisted address has no value, so no entry can equal what an
unlisted address reads as.) -/
def wf : Memory → Bool
  | [] => true
  | [_] => true
  | c :: d :: m => decide (c.1 < d.1) && wf (d :: m)

/-- Every listed address is a location of a space of `cap` bytes. -/
def within (cap : Nat) (m : Memory) : Bool := m.all fun c => decide (c.1 < cap)

end Memory

namespace State

def setSes (x : Session) (s : State) : State := { s with ses := x }
def setCfg (x : Settings) (s : State) : State := { s with cfg := x }
def setFile (x : Memory) (s : State) : State := { s with file := x }
def setBlk (x : List Block) (s : State) : State := { s with blk := x }
def setTrail (x : Memory) (s : State) : State := { s with trail := x }
def setPending (x : List Byte) (s : State) : State := { s with pending := x }
def setSent (x : List (List Byte)) (s : State) : State := { s with sent := x }
def setEnv (x : Env) (s : State) : State := { s with env := x }

/-- R11: `PHASE <- target`, the block's control transfer. -/
def setPhase (p : Phase) (s : State) : State := { s with ses := { s.ses with phase := p } }

/-- R11: `emit`, the events appended to `HIST`. -/
def emit (es : List Event) (s : State) : State := { s with hist := s.hist ++ es }

/-- A wait asked of the time base (R37). -/
def askWait (k : WaitKind) (d : Rat) (s : State) : State := { s with waits := s.waits ++ [⟨k, d⟩] }

/-- The result of an operation, given to whoever asked for it. -/
def respond (a : Answer) (s : State) : State := { s with answer := a }

/-- R11: `Sleep(kind, d)`, with its event `EV_SLEEP(kind)`. -/
def sleepFor (k : SleepKind) (d : Rat) (s : State) : State :=
  (s.askWait (.sleep k) d).emit [.sleep k]

/-- Bytes reach the transport's pending input (R42). -/
def arrive (bs : List Byte) (s : State) : State := s.setPending (s.pending ++ bs)

/-- R39: byte `a` of `FILE`: what the host wrote, else a free value. -/
def fileByte (s : State) (a : Nat) : Byte :=
  (Memory.read s.file a).getD (Config.freeFile s.env.fileEpoch a)

/-- R41: byte `k` of `TRAIL`; at or beyond `TRAIL_LEN` it is unspecified, a free value. -/
def trailByte (s : State) (k : Nat) : Byte :=
  if k < s.ses.trailLen.toNat then (Memory.read s.trail k).getD (Config.freeTrail s.env.trailEpoch k)
  else Config.freeTrail s.env.trailEpoch k

/-- R206: `TRAIL[0 .. TRAIL_LEN-1]`. -/
def trailBytes (s : State) : List Byte := (List.range s.ses.trailLen.toNat).map s.trailByte

/-- R61: block `i` of `BLK`, which has blocks 0 to `NBLK - 1`. -/
def block? (s : State) (i : Nat) : Option Block :=
  if i < s.ses.nblk then s.blk[i]? else none

/-- The bytes of `TRAIL` beyond `TRAIL_LEN` are unspecified anew. -/
def freshTrail (s : State) : State := s.setEnv { s.env with trailEpoch := s.env.trailEpoch + 1 }

/-- R28: the value of `ELAPSED` after `d` is added, no further than the register goes; "no step lowers it". -/
def elapsedPlus (d : Nat) (s : State) : Nat :=
  max s.ses.elapsed (min (s.ses.elapsed + d) (2 ^ s.par.elapsedBits - 1))

/-- R28: adds `d` to `ELAPSED`. -/
def addElapsed (d : Nat) (s : State) : State := s.setSes { s.ses with elapsed := s.elapsedPlus d }

end State

/-! ### The inputs (R44): the next one given, else a free value -/

/-- The transport's answer to an `RX_CLEAR`. -/
def drawClear (s : State) : Bool × State :=
  match s.env.clears with
  | x :: xs => (x, s.setEnv { s.env with clears := xs })
  | [] => (Config.freeClear s.env.draws, s.setEnv { s.env with draws := s.env.draws + 1 })

/-- The transport's answer to a `TX_WRITE`. -/
def drawWrite (s : State) : Bool × State :=
  match s.env.writes with
  | x :: xs => (x, s.setEnv { s.env with writes := xs })
  | [] => (Config.freeWrite s.env.draws, s.setEnv { s.env with draws := s.env.draws + 1 })

/-- What a response read meets. -/
def drawRead (s : State) : Option (List Byte) × State :=
  match s.env.reads with
  | x :: xs => (x, s.setEnv { s.env with reads := xs })
  | [] => (Config.freeRead s.env.draws, s.setEnv { s.env with draws := s.env.draws + 1 })

/-- What a trailing read meets. -/
def drawTail (s : State) : Option (List Byte) × State :=
  match s.env.tails with
  | x :: xs => (x, s.setEnv { s.env with tails := xs })
  | [] => (Config.freeTail s.env.draws, s.setEnv { s.env with draws := s.env.draws + 1 })

/-- The random number of a backoff (R170). -/
def drawRandom (s : State) : Rand × State :=
  match s.env.randoms with
  | x :: xs => (x, s.setEnv { s.env with randoms := xs })
  | [] => (Config.freeRandom s.env.draws, s.setEnv { s.env with draws := s.env.draws + 1 })

/-- R28, R150: the amount an engine step adds to `ELAPSED`. -/
def drawElapse (s : State) : Nat × State :=
  match s.env.elapses with
  | x :: xs => (x, s.setEnv { s.env with elapses := xs })
  | [] => (Config.freeElapse s.env.draws, s.setEnv { s.env with draws := s.env.draws + 1 })

/-- R28: time passes over an engine step. -/
def elapse (s : State) : State := (drawElapse s).2.addElapsed (drawElapse s).1

/-! ### The transport (R210 to R213); the first component is the operation's result -/

/-- R213: `RX_CLEAR()`; `false` is a transport fault. -/
def rxClear (s : State) : Bool × State :=
  if (drawClear s).1 then (true, (drawClear s).2.setPending []) else (false, (drawClear s).2)

/-- R211, R70: `TX_WRITE(s)`, whole or not at all (log entry 17); `false` is a transport fault. -/
def txWrite (f : List Byte) (s : State) : Bool × State :=
  if (drawWrite s).1 then (true, (drawWrite s).2.setSent ((drawWrite s).2.sent ++ [f])) else (false, (drawWrite s).2)

/-- What reaches the pending input by the end of a read: the response read (R156) and the trailing read (R175) have
inputs of their own, as in R216 (log entries 20 and 24). -/
def drawArrivals (k : ReadUse) (s : State) : Option (List Byte) × State :=
  match k with
  | .response => drawRead s
  | .trailing => drawTail s

/-- R212, R71: `RX_READ(n, T)` takes the first `n` bytes of the pending input, or as many as there are; `none` is a
transport fault. -/
def rxRead (k : ReadUse) (n : Nat) (t : Rat) (s : State) : Option (List Byte) × State :=
  match drawArrivals k (s.askWait .read t) with
  | (none, s') => (none, s')
  | (some bs, s') => (some ((s'.pending ++ bs).take n), s'.setPending ((s'.pending ++ bs).drop n))

/-! ### The engine's shared effects -/

/-- R178, R241: TAKING A TRANSPORT FAULT. `CURSOR`, `RPT`, `NBLK` and `TRAIL_LEN` keep their values; there is no return
from it into the session (R243). -/
def takeFault (op : TransportOp) (s : State) : State :=
  (s.setSes { s.ses with outcome := .fault, cause := .transportFault, phase := .done }).emit [.fault op]

/-- R158: the effect of an ACK. -/
def advance (s : State) : State :=
  s.setSes { s.ses with cursor := s.ses.cursor + 1, rpt := 0, phase := .pace }

/-- R162: `NEGATIVE()`. The test is made on the incremented value, in the same step. -/
def negative (s : State) : State :=
  if s.ses.rpt + 1 > s.cfg.retryCeiling then
    s.setSes { s.ses with rpt := s.ses.rpt + 1, outcome := .aborted, cause := .retryExhausted, phase := .drain }
  else s.setSes { s.ses with rpt := s.ses.rpt + 1, phase := .backoff }

/-- R158 to R161: what the class of a response does. -/
def classEffect : Response → State → State
  | .ack, s => advance s
  | .nak, s => negative s
  | .other _, s => negative s
  | .timeout, s => negative s

/-- R158 to R161: an `E_RESP` step, its event `EV_READ` and its effect. -/
def takeResponse (r : Response) (s : State) : State := classEffect r ((elapse s).emit [.read r])

/-- R152: `E_START`, a wholly new session at block 0. -/
def startSession (s : State) : State :=
  { s with
    blk := chunk s.fileByte s.cfg.fileLen
    ses := { phase := .send, outcome := .none, cause := .none, cursor := 0, rpt := 0
             nblk := nblkOf s.cfg.fileLen, elapsed := 0, trailLen := 0 }
    lockedCeiling := s.cfg.retryCeiling
    hist := []
    waits := []
    env := { s.env with trailEpoch := s.env.trailEpoch + 1 } }

/-- R155: one attempt for the block `p` at `CURSOR`: clear, then write, then `WAIT`. DEDUCED (log entry 28): a transport
fault takes the place of the rest (R178) from the first attempt on, so such a session has no `EV_WRITE`, although R181
counts at least one. -/
def sendAttempt (p : Block) (s : State) : State :=
  match rxClear s with
  | (false, s1) => takeFault .rxClear s1
  | (true, s1) =>
    match txWrite (buildFrame (widx s.ses.cursor) p) (s1.emit [.clear]) with
    | (false, s2) => takeFault .txWrite s2
    | (true, s2) => (s2.emit [.write (buildFrame (widx s.ses.cursor) p)]).setPhase .wait

/-- R170: `BACKOFF_BASE + (RPT / BACKOFF_DIV) * u`, in exact arithmetic. -/
def backoffDelay (u : Rat) (s : State) : Rat :=
  s.cfg.backoffBase + (s.ses.rpt : Rat) / s.cfg.backoffDiv * u

/-- R172: after the pacing wait, the end of the session or the next block. -/
def paceEffect (s : State) : State :=
  if s.ses.cursor = s.ses.nblk then s.setSes { s.ses with outcome := .completed, phase := .drain }
  else s.setPhase .send

/-- R175: the trailing bytes stored, the session over. -/
def storeTail (t : List Byte) (s : State) : State :=
  (((s.setTrail (Memory.writeBytes 0 t s.trail)).setSes
    { s.ses with trailLen := BitVec.ofNat 16 t.length, phase := .done }).freshTrail).emit [.drain t]

/-- R175: the final wait, then whatever is pending. -/
def drainTail (s : State) : State :=
  match rxRead .trailing s.par.trailCap 0 (s.sleepFor .final s.cfg.finalWait) with
  | (none, s') => takeFault .rxRead s'
  | (some t, s') => storeTail t s'

/-- R201, R260, R261: reset. The transport and the outside world are untouched; `FILE`, `BLK` and `TRAIL` become
unspecified. -/
def resetBlock (s : State) : State :=
  { State.resetWith s.par with
    pending := s.pending
    sent := s.sent
    env := { s.env with fileEpoch := s.env.fileEpoch + 1, trailEpoch := s.env.trailEpoch + 1 } }

end Sys2Proof.Machine
end

