-- ==== Sys2Proof/WellFormed.lean ====
section
/-! DEFINITION. Which terms of `Instr` are operations of the block: the operand domains the rules state, under
the parameters `q` of R9. A configuration value that is not legal is NOT ill-formed: `H_CFG` with it is an operation,
and is ignored (R203). -/

namespace Sys2Proof

/-- R96: class `OTHER` is every byte but `0x06` and `0x15`. -/
def isNoise (b : Byte) : Bool := b != Config.ACK && b != Config.NAK

/-- R121: `0 <= len(g) <= 128`. -/
def padOperandOk (g : List Byte) : Bool := decide (g.length ≤ Config.BLOCK_SIZE)

/-- R122, R123: `0 <= N <= FILE_CAP`. -/
def fileLengthOk (q : Parameters) (n : Nat) : Bool := decide (n ≤ q.fileCap)

/-- R126: "a cursor value, `0 <= i < 2^CURSOR_BITS`". -/
def cursorValueOk (q : Parameters) (i : Nat) : Bool := decide (i < 2 ^ q.cursorBits)

/-- R202: `len(s) <= FILE_CAP`; a byte's address is a location of `FILE` (R60). A `FILE_LEN` of its own may be any
value: a larger one is ignored (R35). -/
def loadOk (q : Parameters) : Load → Bool
  | .whole s => decide (s.length ≤ q.fileCap)
  | .byte a _ => decide (a < q.fileCap)
  | .length _ => true

/-- R60, R62: the byte the host reads by name is a location of `FILE` or `TRAIL`. -/
def statusFormOk (q : Parameters) : StatusForm → Bool
  | .reg (.file a) => decide (a < q.fileCap)
  | .reg (.trail k) => decide (k < q.trailCap)
  | _ => true

/-- R211: "always a frame of exactly 132 bytes"; R63: the outgoing stream carries "frames and nothing else". -/
def txOperandOk (s : List Byte) : Bool := Machine.isFrame s

/-- R37: a duration is non-negative. -/
def durationOk (t : Rat) : Bool := decide (0 ≤ t)

/-- The operand domain of every operation. -/
def Instr.wellFormed (q : Parameters) : Instr → Bool
  | .frame _ _ => true
  | .ack => true
  | .nak => true
  | .other b => isNoise b
  | .timeout => true
  | .pad g => padOperandOk g
  | .nblkOf n => fileLengthOk q n
  | .chunk n => fileLengthOk q n
  | .widx i => cursorValueOk q i
  | .checksum _ => true
  | .buildFrame _ _ => true
  | .buildFrameRaw _ _ => true
  | .frameOf _ => true
  | .eStart => true
  | .eSend => true
  | .eRespAck => true
  | .eRespNak => true
  | .eRespOther b => isNoise b
  | .eRespTimeout => true
  | .eBackoff _ => true
  | .ePace => true
  | .eDrain => true
  | .eFault _ => true
  | .hReset => true
  | .hLoad l => loadOk q l
  | .hCfg _ => true
  | .hStart => true
  | .hStatus f => statusFormOk q f
  | .hResult => true
  | .txWrite s => txOperandOk s
  | .rxRead _ t => durationOk t
  | .rxClear => true

end Sys2Proof
end

