-- ==== Sys2Proof/Machine/Operands.lean ====
section
/-! DEFINITION. The operand forms: the random fraction of a backoff, the host's ways of writing the file and the
registers with their legality tests, and the host's reads by name. -/

namespace Sys2Proof

/-- R170: the number `u`, `0 <= u < 1`. -/
def Rand.val (u : Rand) : Rat := (u.a : Rat) / ((u.a + u.b + 1 : Nat) : Rat)

end Sys2Proof

namespace Sys2Proof.Machine

/-- The physical length of a wait; the time-unit is OPEN (R9). -/
def Wait.physical (w : Wait) : Rat := w.duration * Config.TIME_UNIT

/-- R36, R37: `reg <- v` for a legal value, of `RETRY_CEILING` at most `2^RPT_BITS - 2` (R9); R203: ignored when the value is
not legal; R34: a write to `STATUS` is ignored. -/
def applyCfg (q : Parameters) (c : CfgWrite) (x : Settings) : Settings :=
  match c with
  | .retryCeiling v => if v + 2 ≤ 2 ^ q.rptBits then { x with retryCeiling := v } else x
  | .respTimeout d => if 0 ≤ d then { x with respTimeout := d } else x
  | .finalWait d => if 0 ≤ d then { x with finalWait := d } else x
  | .paceDelay d => if 0 ≤ d then { x with paceDelay := d } else x
  | .backoffBase d => if 0 ≤ d then { x with backoffBase := d } else x
  | .backoffDiv d => if 0 < d then { x with backoffDiv := d } else x
  | .status _ => x

/-- R202: the whole file, first byte at address 0, and its length. -/
def loadWhole (bs : List Byte) (s : State) : State :=
  (s.setFile (Memory.writeBytes 0 bs s.file)).setCfg { s.cfg with fileLen := bs.length }

/-- R202, R60: one byte of `FILE` (log entry 21). -/
def loadByte (a : Nat) (b : Byte) (s : State) : State := s.setFile (Memory.write a b s.file)

/-- R35: `FILE_LEN` alone; a value above `FILE_CAP` is ignored. -/
def loadLength (n : Nat) (s : State) : State :=
  if n ≤ s.par.fileCap then s.setCfg { s.cfg with fileLen := n } else s

/-- R205: what `H_STATUS` answers. -/
def statusView (s : State) : StatusView where
  status := s.statusWord
  cursor := s.ses.cursor
  rpt := s.ses.rpt
  nblk := s.ses.nblk
  elapsed := s.ses.elapsed

/-- R206: what `H_RESULT` answers. -/
def resultView (s : State) : ResultView where
  cursor := s.ses.cursor
  nblk := s.ses.nblk
  elapsed := s.ses.elapsed
  trail := s.trailBytes
  trailLen := s.ses.trailLen
  outcome := s.ses.outcome
  cause := s.ses.cause

/-- R45, R77: a register, or a byte of `FILE` or `TRAIL`, by name. -/
def hostRead (r : HostReg) (s : State) : RegValue :=
  match r with
  | .status => .word s.statusWord.toNat
  | .phase => .word s.ses.phase.code.toNat
  | .outcome => .word s.ses.outcome.code.toNat
  | .cause => .word s.ses.cause.code.toNat
  | .cursor => .word s.ses.cursor
  | .rpt => .word s.ses.rpt
  | .nblk => .word s.ses.nblk
  | .elapsed => .word s.ses.elapsed
  | .trailLen => .word s.ses.trailLen.toNat
  | .fileLen => .word s.cfg.fileLen
  | .retryCeiling => .word s.cfg.retryCeiling
  | .respTimeout => .duration s.cfg.respTimeout
  | .finalWait => .duration s.cfg.finalWait
  | .paceDelay => .duration s.cfg.paceDelay
  | .backoffBase => .duration s.cfg.backoffBase
  | .backoffDiv => .duration s.cfg.backoffDiv
  | .file a => .byte (s.fileByte a)
  | .trail k => .byte (s.trailByte k)

end Sys2Proof.Machine
end

