-- ==== Sys2Proof/Machine/Engine.lean ====
section
/-! DEFINITION. The meanings of the engine steps (41_engine.md). A step whose "Enabled when" guard is false does not
exist in that state, and offered by name it is refused as `notEnabled` (log entry 11). -/

namespace Sys2Proof.Machine

/-- `E_START` (R152). Its guard asks for the host's `H_START`: DESIGN CHOICE (log entry 11), an `E_START` offered by name
in `IDLE` or `DONE` stands for one. -/
def execEStart (s : State) : Host.Outcome State Fault Refusal :=
  if s.busy then .refused (.notEnabled s.ses.phase) else .next (startSession s)

/-- `E_SEND` (R155); with a transport fault, `E_FAULT` in place of the rest (R178). -/
def execESend (s : State) : Host.Outcome State Fault Refusal :=
  if s.ses.phase = .send then
    match s.block? s.ses.cursor with
    | some p => .next (sendAttempt p (elapse s))
    | none => .fault (.noSuchBlock s.ses.cursor)
  else .refused (.notEnabled s.ses.phase)

/-- `E_RESP_ACK` (R158). -/
def execERespAck (s : State) : Host.Outcome State Fault Refusal :=
  if s.ses.phase = .wait then .next (takeResponse .ack s) else .refused (.notEnabled s.ses.phase)

/-- `E_RESP_NAK` (R159). -/
def execERespNak (s : State) : Host.Outcome State Fault Refusal :=
  if s.ses.phase = .wait then .next (takeResponse .nak s) else .refused (.notEnabled s.ses.phase)

/-- `E_RESP_OTHER` (R160). -/
def execERespOther (b : Byte) (s : State) : Host.Outcome State Fault Refusal :=
  if isNoise b then
    if s.ses.phase = .wait then .next (takeResponse (.other b) s) else .refused (.notEnabled s.ses.phase)
  else .refused .operandOutOfDomain

/-- `E_RESP_TIMEOUT` (R161). -/
def execERespTimeout (s : State) : Host.Outcome State Fault Refusal :=
  if s.ses.phase = .wait then .next (takeResponse .timeout s) else .refused (.notEnabled s.ses.phase)

/-- `E_BACKOFF` (R170). -/
def execEBackoff (u : Rand) (s : State) : Host.Outcome State Fault Refusal :=
  if s.ses.phase = .backoff then .next (((elapse s).sleepFor .backoff (backoffDelay u.val s)).setPhase .send)
  else .refused (.notEnabled s.ses.phase)

/-- `E_PACE` (R172). -/
def execEPace (s : State) : Host.Outcome State Fault Refusal :=
  if s.ses.phase = .pace then .next (paceEffect ((elapse s).sleepFor .pace s.cfg.paceDelay))
  else .refused (.notEnabled s.ses.phase)

/-- `E_DRAIN` (R175); with a transport fault, `E_FAULT` (R178). -/
def execEDrain (s : State) : Host.Outcome State Fault Refusal :=
  if s.ses.phase = .drain then .next (drainTail (elapse s)) else .refused (.notEnabled s.ses.phase)

/-- R178: the events and effects of the operations that succeeded before `op` faulted in the phase `p`; `none` where
`op` is no operation of the phase's step (log entry 15). DESIGN CHOICE (log entry 8): a read that faults counts as a wait
asked for. `RX_READ` of `WAIT` has asked for its own when the engine comes here, so none is added in that phase, not even
by name; in `DRAIN` by name the final wait and the read's are added here. -/
def beforeFault (op : TransportOp) (s : State) : Option State :=
  match s.ses.phase, op with
  | .send, .rxClear => some s
  | .send, .txWrite => some ((s.setPending []).emit [.clear])
  | .wait, .rxRead => some s
  | .drain, .rxRead => some ((s.sleepFor .final s.cfg.finalWait).askWait .read 0)
  | _, _ => none

/-- `E_FAULT` (R178), for the operation that answered with a transport fault. -/
def execEFault (op : TransportOp) (s : State) : Host.Outcome State Fault Refusal :=
  match beforeFault op (elapse s) with
  | some s' => .next (takeFault op s')
  | none => .refused (.notEnabled s.ses.phase)

end Sys2Proof.Machine
end

