-- ==== Sys2Proof/Machine/Framer.lean ====
section
/-! DEFINITION. The meanings of the Framer's functions (R120 to R133), evaluated for whoever asks: the result is the
answer, and no register, memory, event or transport state changes (R120: "total ..., deterministic, and free of side
effects"). -/

namespace Sys2Proof.Machine

/-- `PAD(g)` (R121). -/
def execPad (g : List Byte) (s : State) : Host.Outcome State Fault Refusal :=
  if h : g.length ≤ Config.BLOCK_SIZE then .next (s.respond (.block (padBlock g h))) else .refused .operandOutOfDomain

/-- `NBLK_OF(N)` (R122), for `0 <= N <= FILE_CAP`. -/
def execNblkOf (n : Nat) (s : State) : Host.Outcome State Fault Refusal :=
  if fileLengthOk s.par n then .next (s.respond (.count (nblkOf n))) else .refused .operandOutOfDomain

/-- `CHUNK(FILE, N)` (R123), which reads `FILE[a]` "for `0 <= a < FILE_LEN` and no other address" (R60). R123 gives the
operand as `N = FILE_LEN`. DESIGN CHOICE (log entry 26): offered by name, a smaller `N` runs too, and a larger one, which
would read beyond `FILE_LEN`, faults, as section 1 of 93_implementation_defined.md allows. -/
def execChunk (n : Nat) (s : State) : Host.Outcome State Fault Refusal :=
  if fileLengthOk s.par n then
    if n ≤ s.cfg.fileLen then .next (s.respond (.blocks (chunk s.fileByte n))) else .fault (.beyondFileLen n)
  else .refused .operandOutOfDomain

/-- `WIDX(i)` (R126), for `0 <= i < 2^CURSOR_BITS`. -/
def execWidx (i : Nat) (s : State) : Host.Outcome State Fault Refusal :=
  if cursorValueOk s.par i then .next (s.respond (.byte (widx i))) else .refused .operandOutOfDomain

/-- `CHECKSUM(p)` (R128). -/
def execChecksum (p : Block) (s : State) : Host.Outcome State Fault Refusal :=
  .next (s.respond (.byte (checksum p)))

/-- `BUILD_FRAME(idx, p)` (R130): any index, 0 included. -/
def execBuildFrame (idx : Byte) (p : Block) (s : State) : Host.Outcome State Fault Refusal :=
  .next (s.respond (.frame (buildFrame idx p)))

/-- `BUILD_FRAME_RAW(idx, s)` (R132): a payload that is not 128 bytes is the fault `InvalidPayloadSize` (R232). -/
def execBuildFrameRaw (idx : Nat) (bs : List Byte) (s : State) : Host.Outcome State Fault Refusal :=
  if h : bs.length = 128 then .next (s.respond (.frame (buildFrame (narrowIndex idx) ⟨bs, h⟩)))
  else .fault (.invalidPayloadSize bs.length)

/-- `FRAME_OF(i)` (R133): `BUILD_FRAME(WIDX(i), BLK[i])`, for `i < NBLK`. -/
def execFrameOf (i : Nat) (s : State) : Host.Outcome State Fault Refusal :=
  match s.block? i with
  | some p => .next (s.respond (.frame (buildFrame (widx i) p)))
  | none => .fault (.noSuchBlock i)

end Sys2Proof.Machine
end

