-- ==== Sys2Proof/Machine/HostOps.lean ====
section
/-! DEFINITION. The meanings of the host operations (R200 to R206). While `BUSY`, `H_LOAD`, `H_CFG` and `H_START` are
ignored, "without any fault or flag" (R38, R239). -/

namespace Sys2Proof.Machine

/-- `H_RESET` (R201). -/
def execHReset (s : State) : Host.Outcome State Fault Refusal := .next (resetBlock s)

/-- `H_LOAD(s)` (R202), in its three forms. -/
def execHLoad (l : Load) (s : State) : Host.Outcome State Fault Refusal :=
  if s.busy then .next s
  else
    match l with
    | .whole bs => if bs.length ≤ s.par.fileCap then .next (loadWhole bs s) else .refused .operandOutOfDomain
    | .byte a b => if a < s.par.fileCap then .next (loadByte a b s) else .fault (.noSuchFileByte a)
    | .length n => .next (loadLength n s)

/-- `H_CFG(reg, v)` (R203). -/
def execHCfg (c : CfgWrite) (s : State) : Host.Outcome State Fault Refusal :=
  if s.busy then .next s else .next (s.setCfg (applyCfg s.par c s.cfg))

/-- `H_START` (R204). -/
def execHStart (s : State) : Host.Outcome State Fault Refusal :=
  if s.busy then .next s else .next (startSession s)

/-- `H_STATUS` (R205), and a read by name (R77); an address that is no location of `FILE` or `TRAIL` faults. -/
def execHStatus (f : StatusForm) (s : State) : Host.Outcome State Fault Refusal :=
  match f with
  | .poll => .next (s.respond (.status (statusView s)))
  | .reg (.file a) =>
    if a < s.par.fileCap then .next (s.respond (.reg (hostRead (.file a) s)))
    else .fault (.noSuchFileByte a)
  | .reg (.trail k) =>
    if k < s.par.trailCap then .next (s.respond (.reg (hostRead (.trail k) s))) else .fault (.noSuchTrailByte k)
  | .reg r => .next (s.respond (.reg (hostRead r s)))

/-- `H_RESULT` (R206). -/
def execHResult (s : State) : Host.Outcome State Fault Refusal := .next (s.respond (.result (resultView s)))

end Sys2Proof.Machine
end

