-- ==== Sys2Proof/Decode.lean ====
section
/-! DEFINITION. The decoder of the items of the line, total on any bytes, rejecting by name, and the encoder. Five rows
of the table have an encoding (R112): `FRAME` (R90), `ACK`, `NAK`, `OTHER` and `TIMEOUT` (R96). The other rows are
"operations the source defines without any bit encoding" and are selected by name, which `Instr.mnemonic` gives. -/

namespace Sys2Proof

/-- R96: the class of a single control byte. All eight bits are compared. -/
def decodeControl (b : Byte) : Instr :=
  if b = Config.ACK then .ack else if b = Config.NAK then .nak else .other b

/-- R90, R92: the fields of a frame, header first, after the lengths are known to be right. -/
def decodeFields (hdr idx cmpl : Byte) (p : Block) (cks : Byte) : Except DecodeError Instr :=
  if hdr ≠ Config.SOH then .error (.badHeader hdr)
  else if cmpl ≠ 255 - idx then .error (.badComplement idx cmpl)
  else if cks ≠ Machine.checksum p then .error (.badChecksum cks)
  else .ok (.frame idx p)

/-- R90: bytes 3 to 130 are the payload and byte 131 the checksum; `rest` is everything after byte 2. -/
def decodeFrame (hdr idx cmpl : Byte) (rest : List Byte) : Except DecodeError Instr :=
  if h : (rest.take 128).length = 128 then
    match rest.drop 128 with
    | [cks] => decodeFields hdr idx cmpl ⟨rest.take 128, h⟩ cks
    | _ => .error (.badLength (rest.length + 3))
  else .error (.badLength (rest.length + 3))

/-- The item of the line that a byte sequence is: no byte a timeout, one byte a response (R96), 132 bytes a frame
(R90); R99: "one frame length and one format". -/
def decode : List Byte → Except DecodeError Instr
  | [] => .ok .timeout
  | [b] => .ok (decodeControl b)
  | [_, _] => .error (.badLength 2)
  | hdr :: idx :: cmpl :: rest => decodeFrame hdr idx cmpl rest

/-- R90's table, offset by offset. -/
def frameLayout (idx : Byte) (p : Block) : List Byte :=
  0x01 :: idx :: (255 - idx) :: (p.bytes ++ [BitVec.ofNat 8 ((p.bytes.map BitVec.toNat).sum)])

/-- The bytes of an item of the line; `none` for an operation that has no encoding (R112). -/
def encode : Instr → Option (List Byte)
  | .frame idx p => some (frameLayout idx p)
  | .ack => some [0x06]
  | .nak => some [0x15]
  | .other b => some [b]
  | .timeout => some []
  | .pad _ => none
  | .nblkOf _ => none
  | .chunk _ => none
  | .widx _ => none
  | .checksum _ => none
  | .buildFrame _ _ => none
  | .buildFrameRaw _ _ => none
  | .frameOf _ => none
  | .eStart => none
  | .eSend => none
  | .eRespAck => none
  | .eRespNak => none
  | .eRespOther _ => none
  | .eRespTimeout => none
  | .eBackoff _ => none
  | .ePace => none
  | .eDrain => none
  | .eFault _ => none
  | .hReset => none
  | .hLoad _ => none
  | .hCfg _ => none
  | .hStart => none
  | .hStatus _ => none
  | .hResult => none
  | .txWrite _ => none
  | .rxRead _ _ => none
  | .rxClear => none

/-- R110: the operation names, which stand where mnemonics would. -/
def Instr.mnemonic : Instr → String
  | .frame _ _ => "FRAME"
  | .ack => "ACK"
  | .nak => "NAK"
  | .other _ => "OTHER"
  | .timeout => "TIMEOUT"
  | .pad _ => "PAD"
  | .nblkOf _ => "NBLK_OF"
  | .chunk _ => "CHUNK"
  | .widx _ => "WIDX"
  | .checksum _ => "CHECKSUM"
  | .buildFrame _ _ => "BUILD_FRAME"
  | .buildFrameRaw _ _ => "BUILD_FRAME_RAW"
  | .frameOf _ => "FRAME_OF"
  | .eStart => "E_START"
  | .eSend => "E_SEND"
  | .eRespAck => "E_RESP_ACK"
  | .eRespNak => "E_RESP_NAK"
  | .eRespOther _ => "E_RESP_OTHER"
  | .eRespTimeout => "E_RESP_TIMEOUT"
  | .eBackoff _ => "E_BACKOFF"
  | .ePace => "E_PACE"
  | .eDrain => "E_DRAIN"
  | .eFault _ => "E_FAULT"
  | .hReset => "H_RESET"
  | .hLoad _ => "H_LOAD"
  | .hCfg _ => "H_CFG"
  | .hStart => "H_START"
  | .hStatus _ => "H_STATUS"
  | .hResult => "H_RESULT"
  | .txWrite _ => "TX_WRITE"
  | .rxRead _ _ => "RX_READ"
  | .rxClear => "RX_CLEAR"

/-- The bytes of a table word: byte `k` is bits `8*k+7` to `8*k`, the first byte on the line first. -/
def wordBytes (nbits w : Nat) : List Byte :=
  (List.range ((nbits + 7) / 8)).map fun k => BitVec.ofNat 8 (w >>> (8 * k))

/-- What the decoder reads from a table word of `nbits` bits. The length is part of the encoding: 0 bits are the empty
answer, 8 a control byte, 1056 a frame (log entry 14). -/
def decodeTableWord (nbits w : Nat) : Option Instr := (decode (wordBytes nbits w)).toOption

end Sys2Proof
end

