-- ==== Sys2Proof/Machine/Wire.lean ====
section
/-! DEFINITION. The meanings of the items of the line: `FRAME`, `ACK`, `NAK`, `OTHER`, `TIMEOUT` (R90, R96). A frame
goes out (R63). A control byte, or the absence of one, is the answer of the response read where one is outstanding
(`PHASE = WAIT`, R96 "step taken"); where none is, a byte joins the pending input (R42) and an absence is nothing
(log entry 10). -/

namespace Sys2Proof.Machine

/-- A `TX_WRITE` with its result given to whoever asked (R211). -/
def runTxWrite (f : List Byte) (s : State) : State :=
  (txWrite f s).2.respond (if (txWrite f s).1 then .success else .transportFault)

/-- `FRAME` (R90, R63): the 132 bytes go out on the line, frame byte 0 first (R65). -/
def execFrame (idx : Byte) (p : Block) (s : State) : Host.Outcome State Fault Refusal :=
  .next (runTxWrite (frameLayout idx p) s)

/-- `ACK` (R96): in `WAIT`, `E_RESP_ACK`. -/
def execAck (s : State) : Host.Outcome State Fault Refusal :=
  if s.ses.phase = .wait then .next (takeResponse .ack s) else .next (s.arrive [Config.ACK])

/-- `NAK` (R96): in `WAIT`, `E_RESP_NAK`. -/
def execNak (s : State) : Host.Outcome State Fault Refusal :=
  if s.ses.phase = .wait then .next (takeResponse .nak s) else .next (s.arrive [Config.NAK])

/-- `OTHER` (R96): in `WAIT`, `E_RESP_OTHER`. -/
def execOther (b : Byte) (s : State) : Host.Outcome State Fault Refusal :=
  if isNoise b then
    if s.ses.phase = .wait then .next (takeResponse (.other b) s) else .next (s.arrive [b])
  else .refused .operandOutOfDomain

/-- `TIMEOUT` (R96): in `WAIT`, `E_RESP_TIMEOUT`. -/
def execTimeout (s : State) : Host.Outcome State Fault Refusal :=
  if s.ses.phase = .wait then .next (takeResponse .timeout s) else .next s

end Sys2Proof.Machine
end

