-- ==== Sys2Proof/Machine/Transport.lean ====
section
/-! DEFINITION. The meanings of the transport operations (R210 to R213) as the contract gives them, each one
indivisible action on the transport whose result goes to whoever performed it. Their events in `HIST` belong to the
engine steps that perform them (R43, log entry 16). -/

namespace Sys2Proof.Machine

/-- `TX_WRITE(s)` (R211). -/
def execTxWrite (bs : List Byte) (s : State) : Host.Outcome State Fault Refusal :=
  if txOperandOk bs then .next (runTxWrite bs s) else .refused .operandOutOfDomain

/-- R212: the result of a read, as an answer. -/
def readAnswer : Option (List Byte) → Answer
  | some r => .received r
  | none => .transportFault

/-- Which of the two reads a read of `n` bytes by name is (R214, log entry 20). -/
def readUse (n : Nat) : ReadUse := if n = 1 then .response else .trailing

/-- `RX_READ(n, T)` (R212). -/
def execRxRead (n : Nat) (t : Rat) (s : State) : Host.Outcome State Fault Refusal :=
  if durationOk t then
    .next ((rxRead (readUse n) n t s).2.respond (readAnswer (rxRead (readUse n) n t s).1))
  else .refused .operandOutOfDomain

/-- `RX_CLEAR()` (R213). -/
def execRxClear (s : State) : Host.Outcome State Fault Refusal :=
  .next ((rxClear s).2.respond (if (rxClear s).1 then .success else .transportFault))

end Sys2Proof.Machine
end

