-- ==== Sys2Proof/Machine/Dispatch.lean ====
section
/-! DEFINITION. One arm per operation of spec/opcode_table.json, in the table's order. -/

namespace Sys2Proof.Machine

def exec (i : Instr) (s : State) : Host.Outcome State Fault Refusal :=
  match i with
  | .frame idx p => Sys2Proof.Machine.execFrame idx p s
  | .ack => Sys2Proof.Machine.execAck s
  | .nak => Sys2Proof.Machine.execNak s
  | .other b => Sys2Proof.Machine.execOther b s
  | .timeout => Sys2Proof.Machine.execTimeout s
  | .pad g => Sys2Proof.Machine.execPad g s
  | .nblkOf n => Sys2Proof.Machine.execNblkOf n s
  | .chunk n => Sys2Proof.Machine.execChunk n s
  | .widx k => Sys2Proof.Machine.execWidx k s
  | .checksum p => Sys2Proof.Machine.execChecksum p s
  | .buildFrame idx p => Sys2Proof.Machine.execBuildFrame idx p s
  | .buildFrameRaw idx bs => Sys2Proof.Machine.execBuildFrameRaw idx bs s
  | .frameOf k => Sys2Proof.Machine.execFrameOf k s
  | .eStart => Sys2Proof.Machine.execEStart s
  | .eSend => Sys2Proof.Machine.execESend s
  | .eRespAck => Sys2Proof.Machine.execERespAck s
  | .eRespNak => Sys2Proof.Machine.execERespNak s
  | .eRespOther b => Sys2Proof.Machine.execERespOther b s
  | .eRespTimeout => Sys2Proof.Machine.execERespTimeout s
  | .eBackoff u => Sys2Proof.Machine.execEBackoff u s
  | .ePace => Sys2Proof.Machine.execEPace s
  | .eDrain => Sys2Proof.Machine.execEDrain s
  | .eFault op => Sys2Proof.Machine.execEFault op s
  | .hReset => Sys2Proof.Machine.execHReset s
  | .hLoad l => Sys2Proof.Machine.execHLoad l s
  | .hCfg c => Sys2Proof.Machine.execHCfg c s
  | .hStart => Sys2Proof.Machine.execHStart s
  | .hStatus f => Sys2Proof.Machine.execHStatus f s
  | .hResult => Sys2Proof.Machine.execHResult s
  | .txWrite bs => Sys2Proof.Machine.execTxWrite bs s
  | .rxRead n t => Sys2Proof.Machine.execRxRead n t s
  | .rxClear => Sys2Proof.Machine.execRxClear s

end Sys2Proof.Machine
end

