-- ==== Sys2Proof/Machine/Select.lean ====
section
/-! DEFINITION. What stands where instruction fetch would: which operation comes next (R150, R239) and, in `WAIT`, the
decoding of the answer of the response read (R156). -/

namespace Sys2Proof.Machine

/-- Bytes on the line, decoded. -/
def chooseLine (bs : List Byte) (s : State) : Choice :=
  match decode bs with
  | .ok i => .run i s
  | .error e => .reject e

/-- R156: `r = RxRead(1, RESP_TIMEOUT)`, then its classification, or `E_FAULT`. -/
def chooseResponse (s : State) : Choice :=
  match rxRead .response 1 s.cfg.respTimeout s with
  | (some r, s') => chooseLine r s'
  | (none, s') => .run (.eFault .rxRead) s'

/-- R150: the engine's enabled step; in `IDLE` and `DONE` the engine waits for `H_START` (R262). -/
def chooseEngine (s : State) : Choice :=
  match s.ses.phase with
  | .idle => .idle s
  | .send => .run .eSend s
  | .wait => chooseResponse s
  | .backoff => .run (.eBackoff (drawRandom s).1) (drawRandom s).2
  | .pace => .run .ePace s
  | .drain => .run .eDrain s
  | .done => .idle s

/-- The state once its coming turn has been taken up, and the reset input is low. -/
def takeTurn (s : State) : State := s.setEnv { s.env with agenda := s.env.agenda.tail, resetPin := false }

/-- The next operation. R239 (a): the reset input wins, and what was offered together with it does not happen (log
entry 18). With no turn given, the engine moves. -/
def choose (s : State) : Choice :=
  if s.env.resetPin then .run .hReset (takeTurn s)
  else
    match s.env.agenda with
    | [] => chooseEngine (takeTurn s)
    | .engine :: _ => chooseEngine (takeTurn s)
    | .offer i :: _ => .run i (takeTurn s)
    | .line bs :: _ => chooseLine bs (takeTurn s)

/-- The state in which `bs` stands on the line for the very next step. -/
def putOnLine (bs : List Byte) (s : State) : State :=
  s.setEnv { s.env with agenda := .line bs :: s.env.agenda, resetPin := false }

end Sys2Proof.Machine
end

