-- ==== Sys2Proof/Machine/Step.lean ====
section
/-! DEFINITION. One step of the machine (R12): one application of one operation. -/

namespace Sys2Proof.Machine

/-- R12. -/
def step (s : State) : Host.Outcome State Fault Refusal :=
  match choose s with
  | .run i t => exec i t
  | .idle t => .next t
  | .reject e => .refused (.undecodable e)

/-- `s` with a table word as the item that stands on the line for the very next step; the reset input, which would win
(R239), low. -/
def State.withFetchWord (s : State) (nbits w : Nat) : State := putOnLine (wordBytes nbits w) s

end Sys2Proof.Machine
end

