-- ==== Sys2Proof/Machine/History.lean ====
section
/-! DEFINITION. What is counted on the event history (R43, R180) and the outcome of a session as a function of the
answers (R182). No operation reads any of it. -/

namespace Sys2Proof.Machine

/-- R43: `EV_WRITE` events. -/
def Event.isWrite : Event → Bool
  | .write _ => true
  | .clear => false
  | .read _ => false
  | .sleep _ => false
  | .drain _ => false
  | .fault _ => false

/-- R43: `EV_READ` events whose answer is not the single byte `ACK`. -/
def Event.isNegative : Event → Bool
  | .read .ack => false
  | .read .nak => true
  | .read (.other _) => true
  | .read .timeout => true
  | .write _ => false
  | .clear => false
  | .sleep _ => false
  | .drain _ => false
  | .fault _ => false

/-- `EV_READ` events whose answer is the byte `ACK`. -/
def Event.isAck : Event → Bool
  | .read .ack => true
  | .read .nak => false
  | .read (.other _) => false
  | .read .timeout => false
  | .write _ => false
  | .clear => false
  | .sleep _ => false
  | .drain _ => false
  | .fault _ => false

/-- R43: `NWRITES(HIST)`. -/
def nwrites (h : List Event) : Nat := h.countP Event.isWrite

/-- R43: `NNEG(HIST)`. -/
def nneg (h : List Event) : Nat := h.countP Event.isNegative

/-- The number of ACKs read. -/
def nacks (h : List Event) : Nat := h.countP Event.isAck

/-- One event more for `negativesSinceAck`. -/
def countNegative (n : Nat) (e : Event) : Nat := if e.isAck then 0 else if e.isNegative then n + 1 else n

/-- R180 (c): the negative signals since the last ACK, or since the session began. -/
def negativesSinceAck (h : List Event) : Nat := h.foldl countNegative 0

/-- One event more for `framesSinceAck`. -/
def collectFrame (fs : List (List Byte)) : Event → List (List Byte)
  | .write f => fs ++ [f]
  | .read .ack => []
  | .read .nak => fs
  | .read (.other _) => fs
  | .read .timeout => fs
  | .clear => fs
  | .sleep _ => fs
  | .drain _ => fs
  | .fault _ => fs

/-- R180 (d): the frames written since the last ACK, or since the session began. -/
def framesSinceAck (h : List Event) : List (List Byte) := h.foldl collectFrame []

/-- One event more for `outstanding`. -/
def trackOutstanding (o : Option Bool) : Event → Option Bool
  | .write _ => if o = some false then some true else none
  | .read _ => if o = some true then some false else none
  | .clear => o
  | .sleep _ => o
  | .drain _ => o
  | .fault _ => o

/-- R73, R180 (e): whether a frame is written and its response not yet read; `none` if two writes ever stood without
one read between them, or a read without a write. -/
def outstanding (h : List Event) : Option Bool := h.foldl trackOutstanding (some false)

/-- R182: (`OUTCOME`, `CURSOR`, `RPT`, `NWRITES`) at `DONE`. -/
structure RunResult where
  outcome : SessionOutcome
  cursor : Nat
  rpt : Nat
  nwrites : Nat
deriving DecidableEq, Repr

/-- R182: the loop of `run`, from block `i` with `rpt` negative signals and `k` writes so far; `none` when the answers
are used up before the session ends. -/
def runFrom (nblk c i rpt k : Nat) : List Response → Option RunResult
  | [] => none
  | a :: as =>
    if a = .ack then
      if i + 1 = nblk then some ⟨.completed, i + 1, 0, k + 1⟩ else runFrom nblk c (i + 1) 0 (k + 1) as
    else if rpt + 1 > c then some ⟨.aborted, i, rpt + 1, k + 1⟩
    else runFrom nblk c i (rpt + 1) (k + 1) as

/-- R182: `run(NBLK, c, a)`. -/
def runSession (nblk c : Nat) (as : List Response) : Option RunResult := runFrom nblk c 0 0 0 as

/-- R96: the answer of the response read that has this class. -/
def Response.answer : Response → List Byte
  | .ack => [Config.ACK]
  | .nak => [Config.NAK]
  | .other b => [b]
  | .timeout => []

end Sys2Proof.Machine
end

