-- ==== Sys2Proof/Machine/Scenario.lean ====
section
/-! DEFINITION. The scenario notation (R111) and the reference stub transport (R216): a runner over `step`, which no
definition of the machine uses. What R111 leaves open of its lines is log entry 27. -/

namespace Sys2Proof.Machine

/-- R111: an `<answer>`. -/
inductive ScriptAnswer where
  | ack | nak | timeout | byte (b : Byte) | fault
deriving DecidableEq, Repr

/-- R111: what a script answers when it is used up: `ACK...` or `NAK...` or `TO...` as the last item, and `TO` without
one. -/
inductive LastItem where
  | ack | nak | timeout
deriving DecidableEq, Repr

/-- R111: the fields of an `EXPECT` line, with `NWRITES` and `NNEG` of R43. DESIGN CHOICE (log entry 27): R111 writes
`<field>` only; the model takes those its scenarios use, and every register or byte that the host may read (R45). -/
inductive Expectation where
  | phase (p : Phase)
  | outcome (o : SessionOutcome)
  | cause (c : Cause)
  | cursor (n : Nat)
  | nblk (n : Nat)
  | rpt (n : Nat)
  | trailLen (n : Nat)
  | trail (bs : List Byte)
  | nwrites (n : Nat)
  | nneg (n : Nat)
  | status (w : BitVec 16)
  | reg (r : HostReg) (v : RegValue)
deriving DecidableEq, Repr

/-- R111: the lines of a scenario. An item `(a, n)` of a script is `a*n`. DESIGN CHOICE (log entry 27): the register of
a `CFG` line is one of `H_CFG` (R203), or `FILE_LEN`, which R35 lists among the configuration registers. -/
inductive ScenarioLine where
  | reset
  | cfg (c : CfgWrite)
  | cfgFileLen (n : Nat)
  | file (bs : List Byte)
  | script (items : List (ScriptAnswer × Nat)) (last : LastItem)
  | tail (bs : List Byte)
  | faultAtWrite (n : Nat)
  | start
  | expect (e : Expectation)
deriving DecidableEq, Repr

/-- R111: `FILE <n> x <expr in k>`. -/
def ScenarioLine.fileOf (n : Nat) (f : Nat → Byte) : ScenarioLine := .file ((List.range n).map f)

/-- R216: the stub transport: its script, what it answers after that, its tail, the writes that fault, and how many
writes it has been given. Its log is `State.sent`. -/
structure Stub where
  script : List ScriptAnswer
  last : LastItem
  tail : List Byte
  faultWrites : List Nat
  writes : Nat
deriving DecidableEq, Repr

/-- R111: no script, an empty tail, no fault. -/
def Stub.fresh : Stub where
  script := []
  last := .timeout
  tail := []
  faultWrites := []
  writes := 0

/-- A scenario on its way: the stub, the machine, and whether every `EXPECT` so far was met. -/
structure Bench where
  stub : Stub
  state : State
  met : Bool
deriving DecidableEq, Repr

/-- R111, R216: what a response read meets. -/
def ScriptAnswer.arrivals : ScriptAnswer → Option (List Byte)
  | .ack => some [Config.ACK]
  | .nak => some [Config.NAK]
  | .timeout => some []
  | .byte b => some [b]
  | .fault => none

/-- R111: the answer for ever. -/
def LastItem.answer : LastItem → ScriptAnswer
  | .ack => .ack
  | .nak => .nak
  | .timeout => .timeout

/-- R216: the next script item, or the answer when the script is used up. -/
def Stub.next (x : Stub) : ScriptAnswer := x.script.headD x.last.answer

/-- R216: the stub's answers to whatever transport operations the next engine step performs: clears succeed, a write
succeeds unless it is one that faults, a response read meets the next script item, the trailing read the tail, cut to
`TRAIL_CAP` bytes. The engine is to move. -/
def Stub.answers (x : Stub) (q : Parameters) (e : Env) : Env :=
  { e with clears := [true], writes := [!x.faultWrites.contains (x.writes + 1)], reads := [x.next.arrivals]
           tails := [some (x.tail.take q.trailCap)], agenda := [], resetPin := false }

/-- R216: the stub after the engine step of a phase: a write counted, a script item removed; the tail stays. -/
def Stub.afterStep (x : Stub) : Phase → Stub
  | .idle => x
  | .send => { x with writes := x.writes + 1 }
  | .wait => { x with script := x.script.tail }
  | .backoff => x
  | .pace => x
  | .drain => x
  | .done => x

/-- What follows a next state. -/
def andThen {α β : Type} (x : Host.Outcome α Fault Refusal) (f : α → Host.Outcome β Fault Refusal) :
    Host.Outcome β Fault Refusal :=
  match x with
  | .next t => f t
  | .fault r => .fault r
  | .refused r => .refused r

/-- R111: "the engine then runs to DONE", within so many engine steps. -/
def runToDone : Nat → Bench → Host.Outcome Bench Fault Refusal
  | 0, b => .next b
  | n + 1, b =>
    if b.state.done then .next b
    else andThen (step (b.state.setEnv (b.stub.answers b.state.par b.state.env)))
      fun t => runToDone n { b with stub := b.stub.afterStep b.state.ses.phase, state := t }

/-- R162, R181: how many engine steps a session can take: three an attempt, and the trailing read. -/
def sessionSteps (s : State) : Nat := 3 * (s.ses.nblk * (s.cfg.retryCeiling + 1)) + 1

/-- R111: whether the end state is as expected. -/
def Expectation.holds (e : Expectation) (s : State) : Bool :=
  match e with
  | .phase p => s.ses.phase == p
  | .outcome o => s.ses.outcome == o
  | .cause c => s.ses.cause == c
  | .cursor n => s.ses.cursor == n
  | .nblk n => s.ses.nblk == n
  | .rpt n => s.ses.rpt == n
  | .trailLen n => s.ses.trailLen.toNat == n
  | .trail bs => s.trailBytes == bs
  | .nwrites n => Sys2Proof.Machine.nwrites s.hist == n
  | .nneg n => Sys2Proof.Machine.nneg s.hist == n
  | .status w => s.statusWord == w
  | .reg r v => hostRead r s == v

/-- A host operation of a scenario. -/
def runHost (i : Instr) (b : Bench) : Host.Outcome Bench Fault Refusal :=
  andThen (exec i b.state) fun t => .next { b with state := t }

/-- R111: one line. -/
def runLine (l : ScenarioLine) (b : Bench) : Host.Outcome Bench Fault Refusal :=
  match l with
  | .reset => runHost .hReset { b with stub := Stub.fresh, state := (b.state.setPending []).setSent [] }
  | .cfg c => runHost (.hCfg c) b
  | .cfgFileLen n => runHost (.hLoad (.length n)) b
  | .file bs => runHost (.hLoad (.whole bs)) b
  | .script items last =>
    .next { b with stub := { b.stub with script := items.flatMap fun x => List.replicate x.2 x.1, last := last } }
  | .tail bs => .next { b with stub := { b.stub with tail := bs } }
  | .faultAtWrite n => .next { b with stub := { b.stub with faultWrites := n :: b.stub.faultWrites } }
  | .start => andThen (runHost .hStart b) fun c => runToDone (sessionSteps c.state) c
  | .expect e => .next { b with met := b.met && e.holds b.state }

/-- R111: the lines in order. -/
def runLines : List ScenarioLine → Bench → Host.Outcome Bench Fault Refusal
  | [], b => .next b
  | l :: ls, b => andThen (runLine l b) (runLines ls)

/-- R111: a scenario, from a machine in the state `s`. -/
def runScenario (ls : List ScenarioLine) (s : State) : Host.Outcome Bench Fault Refusal :=
  runLines ls { stub := Stub.fresh, state := s, met := true }

end Sys2Proof.Machine
end

