-- ==== Sys2Proof/Safety.lean ====
section
/-! DEFINITION. What counts as a good state and a safe run, in the terms the statements use: the bounds and relations
of the registers (R24, R31, R206), the canonical form of the memories, what the event history says of the registers
(R180), a session gone wrong (R236), and what it is for an operation to leave a part of the state alone. -/

namespace Sys2Proof

/-- The engine steps (file 41), `E_START` apart. -/
def Instr.isEngineStep : Instr → Bool
  | .frame _ _ => false
  | .ack => false
  | .nak => false
  | .other _ => false
  | .timeout => false
  | .pad _ => false
  | .nblkOf _ => false
  | .chunk _ => false
  | .widx _ => false
  | .checksum _ => false
  | .buildFrame _ _ => false
  | .buildFrameRaw _ _ => false
  | .frameOf _ => false
  | .eStart => false
  | .eSend => true
  | .eRespAck => true
  | .eRespNak => true
  | .eRespOther _ => true
  | .eRespTimeout => true
  | .eBackoff _ => true
  | .ePace => true
  | .eDrain => true
  | .eFault _ => true
  | .hReset => false
  | .hLoad _ => false
  | .hCfg _ => false
  | .hStart => false
  | .hStatus _ => false
  | .hResult => false
  | .txWrite _ => false
  | .rxRead _ _ => false
  | .rxClear => false

/-- R96: the items of the line that are the answer of a response read. -/
def Instr.isControl : Instr → Bool
  | .frame _ _ => false
  | .ack => true
  | .nak => true
  | .other _ => true
  | .timeout => true
  | .pad _ => false
  | .nblkOf _ => false
  | .chunk _ => false
  | .widx _ => false
  | .checksum _ => false
  | .buildFrame _ _ => false
  | .buildFrameRaw _ _ => false
  | .frameOf _ => false
  | .eStart => false
  | .eSend => false
  | .eRespAck => false
  | .eRespNak => false
  | .eRespOther _ => false
  | .eRespTimeout => false
  | .eBackoff _ => false
  | .ePace => false
  | .eDrain => false
  | .eFault _ => false
  | .hReset => false
  | .hLoad _ => false
  | .hCfg _ => false
  | .hStart => false
  | .hStatus _ => false
  | .hResult => false
  | .txWrite _ => false
  | .rxRead _ _ => false
  | .rxClear => false

end Sys2Proof

namespace Sys2Proof.Machine

/-- R236: a session that ended in a transport fault counts as gone wrong, not as a finished transfer. -/
def State.goneWrong (s : State) : Prop := s.ses.outcome = .fault

/-- R31: the phases in which `OUTCOME` is `NONE`. -/
def Phase.open : Phase → Bool
  | .idle => true
  | .send => true
  | .wait => true
  | .backoff => true
  | .pace => true
  | .drain => false
  | .done => false

/-- The phases of an attempt at block `CURSOR`. -/
def Phase.attempting : Phase → Bool
  | .idle => false
  | .send => true
  | .wait => true
  | .backoff => true
  | .pace => false
  | .drain => false
  | .done => false

/-- R24, R36, R37: the configuration registers hold legal values under the parameters `q`. -/
structure Settings.Legal (q : Parameters) (c : Settings) : Prop where
  fileLen : c.fileLen ≤ q.fileCap
  retryCeiling : c.retryCeiling + 2 ≤ 2 ^ q.rptBits
  respTimeout : 0 ≤ c.respTimeout
  finalWait : 0 ≤ c.finalWait
  paceDelay : 0 ≤ c.paceDelay
  backoffBase : 0 ≤ c.backoffBase
  backoffDiv : 0 < c.backoffDiv

/-- R9, R24, R31, R172, R206: the session registers fit together, and each fits its width. The bounds of `RPT` are those
of the ceiling its session ran with, which is `RETRY_CEILING` while `BUSY` (log entry 12). -/
structure State.SessionOk (s : State) : Prop where
  nblk_pos : s.ses.phase ≠ .idle → 1 ≤ s.ses.nblk
  nblk_lt : s.ses.nblk < 2 ^ s.par.cursorBits
  blk_length : s.ses.phase ≠ .idle → s.blk.length = s.ses.nblk
  cursor_le : s.ses.cursor ≤ s.ses.nblk
  outcome_none : s.ses.outcome = .none ↔ s.ses.phase.open = true
  drain_outcome : s.ses.phase = .drain → s.ses.outcome ≠ .fault
  cause_none : s.ses.outcome = .none ∨ s.ses.outcome = .completed → s.ses.cause = .none
  cause_aborted : s.ses.outcome = .aborted → s.ses.cause = .retryExhausted
  cause_fault : s.ses.outcome = .fault → s.ses.cause = .transportFault
  completed_cursor : s.ses.outcome = .completed → s.ses.cursor = s.ses.nblk
  aborted_cursor : s.ses.outcome = .aborted → s.ses.cursor < s.ses.nblk
  attempting_cursor : s.ses.phase.attempting = true → s.ses.cursor < s.ses.nblk
  attempting_rpt : s.ses.phase.attempting = true → s.ses.rpt ≤ s.cfg.retryCeiling
  backoff_rpt : s.ses.phase = .backoff → 1 ≤ s.ses.rpt
  pace : s.ses.phase = .pace → s.ses.rpt = 0 ∧ 1 ≤ s.ses.cursor
  completed_rpt : s.ses.outcome = .completed → s.ses.rpt = 0
  aborted_rpt : s.ses.outcome = .aborted → s.ses.rpt = s.lockedCeiling + 1
  rpt_le : s.ses.rpt ≤ s.lockedCeiling + 1
  ceiling_locked : s.busy = true → s.lockedCeiling = s.cfg.retryCeiling
  ceiling_fits : s.lockedCeiling + 2 ≤ 2 ^ s.par.rptBits
  elapsed_lt : s.ses.elapsed < 2 ^ s.par.elapsedBits
  trailLen_le : s.ses.trailLen.toNat ≤ s.par.trailCap
  trailLen_busy : s.busy = true → s.ses.trailLen = 0
  trailLen_fault : s.ses.outcome = .fault → s.ses.trailLen = 0

/-- The memories are in canonical form inside their spaces, and the valid bytes of `TRAIL` are listed. -/
structure State.MemoriesOk (s : State) : Prop where
  file_wf : Memory.wf s.file = true
  file_within : Memory.within s.par.fileCap s.file = true
  trail_wf : Memory.wf s.trail = true
  trail_within : Memory.within s.par.trailCap s.trail = true
  trail_listed : ∀ k, k < s.ses.trailLen.toNat → (Memory.read s.trail k).isSome = true

/-- A good state. -/
structure State.Good (s : State) : Prop where
  parameters : s.par.Legal
  settings : s.cfg.Legal s.par
  session : s.SessionOk
  memories : s.MemoriesOk

/-- The writes of block `CURSOR` so far (R180 (d)): `RPT + 1` in `WAIT`, else `RPT`. -/
def State.attemptsMade (s : State) : Nat :=
  if s.ses.phase = .wait then s.ses.rpt + 1 else s.ses.rpt

/-- R180, R181, R73: what the event history says of a running session. -/
structure State.HistoryOk (s : State) : Prop where
  acks : s.ses.phase ≠ .idle → nacks s.hist = s.ses.cursor
  negatives : s.ses.phase ≠ .idle → negativesSinceAck s.hist = s.ses.rpt
  stopAndWait : s.busy = true → outstanding s.hist = some (s.ses.phase == .wait)
  stopAndWait_done : s.ses.phase = .done → outstanding s.hist ≠ none
  attempts : s.busy = true → ∀ p, s.block? s.ses.cursor = some p →
    framesSinceAck s.hist = List.replicate s.attemptsMade (buildFrame (widx s.ses.cursor) p)
  frames : ∀ f, Event.write f ∈ s.hist →
    ∃ i p, s.block? i = some p ∧ i ≤ s.ses.cursor ∧ f = buildFrame (widx i) p
  writes_le : s.busy = true →
    nwrites s.hist ≤ s.ses.cursor * (s.cfg.retryCeiling + 1) + s.attemptsMade

/-- Every byte of `FILE` reads as before, and `BLK` is as before. -/
def SameStores (s t : State) : Prop := (∀ a : Nat, t.fileByte a = s.fileByte a) ∧ (∀ i : Nat, t.blk[i]? = s.blk[i]?)

/-- Every byte of `TRAIL` reads as before. -/
def SameTrail (s t : State) : Prop := ∀ k : Nat, t.trailByte k = s.trailByte k

/-- The transport's two streams are as before (R42, R211). -/
def SameLine (s t : State) : Prop := t.pending = s.pending ∧ t.sent = s.sent

/-- What an engine step never touches: parameters, configuration and the ceiling locked with it, `FILE`, `BLK`, the last
answer, and the turns to come. -/
def EngineKeeps (s t : State) : Prop :=
  t.par = s.par ∧ t.cfg = s.cfg ∧ t.lockedCeiling = s.lockedCeiling ∧ SameStores s t ∧ t.answer = s.answer ∧
  t.env.agenda = s.env.agenda ∧ t.env.resetPin = s.env.resetPin

/-- What an operation on the transport never touches: everything of the block, and the turns to come. -/
def TransportKeeps (s t : State) : Prop :=
  t.par = s.par ∧ t.ses = s.ses ∧ t.cfg = s.cfg ∧ t.lockedCeiling = s.lockedCeiling ∧ SameStores s t ∧ SameTrail s t ∧
  t.hist = s.hist ∧ t.env.agenda = s.env.agenda ∧ t.env.resetPin = s.env.resetPin

/-- The session registers are `x` but for `ELAPSED`, which has not become lower than in `s` (R28). -/
def SessionIs (s t : State) (x : Session) : Prop :=
  t.ses = { x with elapsed := t.ses.elapsed } ∧ s.ses.elapsed ≤ t.ses.elapsed

end Sys2Proof.Machine
end

