-- ==== Sys2Proof/Certificates/Slice0/Obligations.lean ====
section
/-! DEFINITION. The statements about the model, for the provers; nothing is proved here. -/

open Sys2Proof Sys2Proof.Machine

/-! ### The items of the line: encoding -/

/-- Sections 1 and 2 of 30_encoding.md: an item that is encoded decodes to itself, with every operand at every value. -/
def Obligations.EncodedItemDecodesToItself : Prop :=
  ∀ (q : Parameters) (i : Instr) (bs : List Byte), i.wellFormed q = true → encode i = some bs → decode bs = .ok i

/-- The other direction: bytes that decode are the encoding of a well-formed item, no bit dropped (30_encoding.md; that
a sequence of 2 to 131 or of more bytes, or 132 bytes that break R92, is no item is the model's decoder, log
entry 14). -/
def Obligations.DecodedBytesAreTheEncoding : Prop :=
  ∀ (q : Parameters) (bs : List Byte) (i : Instr), decode bs = .ok i → i.wellFormed q = true ∧ encode i = some bs

/-- Words written out from R90 and R96 decode to what they stand for. -/
def Obligations.SampleBytesDecode : Prop :=
  decode [] = .ok .timeout ∧ decode [0x06] = .ok .ack ∧ decode [0x15] = .ok .nak ∧ decode [0x43] = .ok (.other 0x43) ∧
  decode [0x86] = .ok (.other 0x86) ∧
  (∃ p : Block, p.bytes = List.replicate 128 0x1A ∧
    decode ([0x01, 0x2D, 0xD2] ++ List.replicate 128 0x1A ++ [0x00]) = .ok (.frame 0x2D p))

/-- R96: the decode of the answer of the response read, total on sequences of 0 or 1 bytes; the step each class takes;
and the one effect of the three negative classes, which differ in the event only. -/
def Obligations.ResponseBytesAreClassified : Prop :=
  (∀ r : List Byte, r.length ≤ 1 →
    (r = [0x06] → decode r = .ok .ack) ∧ (r = [0x15] → decode r = .ok .nak) ∧
    (∀ b, r = [b] → b ≠ 0x06 → b ≠ 0x15 → decode r = .ok (.other b)) ∧ (r = [] → decode r = .ok .timeout)) ∧
  ∀ s : State, s.ses.phase = .wait →
    exec .ack s = exec .eRespAck s ∧ exec .nak s = exec .eRespNak s ∧ exec .timeout s = exec .eRespTimeout s ∧
    ∃ t, exec .eRespNak s = .next t ∧ exec .eRespTimeout s = .next { t with hist := s.hist ++ [.read .timeout] } ∧
      ∀ b : Byte, b ≠ 0x06 → b ≠ 0x15 → exec (.other b) s = exec (.eRespOther b) s ∧
        exec (.eRespOther b) s = .next { t with hist := s.hist ++ [.read (.other b)] }

/-! ### The Framer -/

/-- R121. -/
def Obligations.PadFillsTheFinalGroup : Prop :=
  ∀ (g : List Byte) (s : State), g.length ≤ 128 →
    ∃ p : Block, p.bytes = g ++ List.replicate (128 - g.length) 0x1A ∧ exec (.pad g) s = .next (s.respond (.block p))

/-- R122: `ceil(N / 128)`, and 1 for the empty file. -/
def Obligations.BlockCountIsTheCeiling : Prop :=
  ∀ (n : Nat) (s : State), n ≤ s.par.fileCap →
    ∃ k : Nat, exec (.nblkOf n) s = .next (s.respond (.count k)) ∧ (n = 0 → k = 1) ∧
      (0 < n → 128 * (k - 1) < n ∧ n ≤ 128 * k)

/-- R123: both pseudocode forms of `CHUNK`, and that it reads `FILE[0 .. N-1]` and nothing else; for every `N` that it
takes by name, `N = FILE_LEN` among them, and none beyond it (R60). That it takes a smaller `N`, and faults on a larger,
is the model's choice, log entry 26. -/
def Obligations.ChunkCutsTheFileIntoBlocks : Prop :=
  ∀ (n : Nat) (s : State), n ≤ s.par.fileCap →
    (s.cfg.fileLen < n → exec (.chunk n) s = .fault (.beyondFileLen n)) ∧
    (n ≤ s.cfg.fileLen →
      ∃ bs : List Block, exec (.chunk n) s = .next (s.respond (.blocks bs)) ∧ bs.length = nblkOf n ∧
        (∀ i b, bs[i]? = some b →
          b.bytes = padBytes (fileSlice s.fileByte (128 * i) (min n (128 * i + 128))) ∧
          ∀ j, j < 128 → b.bytes[j]? = some (if 128 * i + j < n then s.fileByte (128 * i + j) else 0x1A)) ∧
        ∀ t : State, n ≤ t.par.fileCap → n ≤ t.cfg.fileLen → (∀ a, a < n → t.fileByte a = s.fileByte a) →
          exec (.chunk n) t = .next (t.respond (.blocks bs)))

/-- Section 1 of 40_framer.md, the properties the source requires of `chunk`: length, reconstruction, pad bytes. -/
def Obligations.ChunkReconstructsTheFile : Prop :=
  ∀ (file : Nat → Byte) (n : Nat),
    ((chunk file n).flatMap Block.bytes).length = 128 * nblkOf n ∧
    ((chunk file n).flatMap Block.bytes).take n = (List.range n).map file ∧
    ∀ b ∈ ((chunk file n).flatMap Block.bytes).drop n, b = 0x1A

/-- R126, with the 8-bit counter an implementation may hold instead. -/
def Obligations.WireIndexIsOneTo255 : Prop :=
  (∀ (i : Nat) (s : State), i < 2 ^ s.par.cursorBits →
    ∃ b : Byte, exec (.widx i) s = .next (s.respond (.byte b)) ∧ b.toNat = i % 255 + 1) ∧
  (∀ i : Nat, widx i ≠ 0 ∧ widx (i + 1) = if widx i = 255 then 1 else widx i + 1) ∧ widx 0 = 1

/-- Section 2 of 40_framer.md: two blocks have the same index exactly when their numbers agree modulo 255, and the
source's sequence for 300 blocks. -/
def Obligations.WireIndexHasPeriod255 : Prop :=
  (∀ a b : Nat, widx a = widx b ↔ a % 255 = b % 255) ∧
  (List.range 300).map widx = (List.range' 1 255 ++ List.range' 1 45).map (BitVec.ofNat 8)

/-- R128: the sum modulo 256, the bound of the true sum, and the wrapping 8-bit accumulator. -/
def Obligations.ChecksumIsTheSumModulo256 : Prop :=
  ∀ (p : Block) (s : State), ∃ c : Byte, exec (.checksum p) s = .next (s.respond (.byte c)) ∧
    c.toNat = (p.bytes.map BitVec.toNat).sum % 256 ∧ (p.bytes.map BitVec.toNat).sum ≤ 32640 ∧
    c = p.bytes.foldl (fun acc b => acc + b) 0

/-- Section 3 of 40_framer.md: a change of exactly one payload byte always changes the checksum, and the order of the
bytes does not matter to it. -/
def Obligations.OneByteChangeIsDetected : Prop :=
  (∀ (p q : Block) (k : Nat), (∀ j, j ≠ k → p.bytes[j]? = q.bytes[j]?) → p.bytes[k]? ≠ q.bytes[k]? →
    checksum p ≠ checksum q) ∧
  (∀ p q : Block, p.bytes.Perm q.bytes → checksum p = checksum q)

/-- R130, with the layout of R90 and the complement of R92, byte by byte. -/
def Obligations.FrameBytesStandInPlace : Prop :=
  ∀ (idx : Byte) (p : Block) (s : State), ∃ f : List Byte,
    exec (.buildFrame idx p) s = .next (s.respond (.frame f)) ∧ encode (.frame idx p) = some f ∧
    f.length = 132 ∧ f[0]? = some 0x01 ∧ f[1]? = some idx ∧
    (∃ c : Byte, f[2]? = some c ∧ c.toNat = 255 - idx.toNat ∧ c = ~~~idx ∧ c = idx ^^^ 0xFF) ∧
    (∀ j, j < 128 → f[3 + j]? = p.bytes[j]?) ∧
    (∃ k : Byte, f[131]? = some k ∧ k.toNat = (p.bytes.map BitVec.toNat).sum % 256)

/-- Section 4 of 40_framer.md: different operands give different frames. -/
def Obligations.FrameDeterminesItsOperands : Prop :=
  ∀ (idx idx' : Byte) (p p' : Block), buildFrame idx p = buildFrame idx' p' → idx = idx' ∧ p = p'

/-- R132: the raw port. -/
def Obligations.RawFrameNeeds128Bytes : Prop :=
  ∀ (idx : Nat) (bs : List Byte) (s : State),
    (∀ h : bs.length = 128, exec (.buildFrameRaw idx bs) s =
      .next (s.respond (.frame (buildFrame (BitVec.ofNat 8 (idx % 256)) ⟨bs, h⟩)))) ∧
    (bs.length ≠ 128 → exec (.buildFrameRaw idx bs) s = .fault (.invalidPayloadSize bs.length))

/-- Section 4 of 40_framer.md: `FRAME_OF(i)`, for `i < NBLK`. -/
def Obligations.FrameOfUsesTheStoredBlock : Prop :=
  ∀ (i : Nat) (s : State) (p : Block), i < s.ses.nblk → s.blk[i]? = some p →
    ∃ f : List Byte, exec (.frameOf i) s = .next (s.respond (.frame f)) ∧ f = buildFrame (widx i) p ∧
      exec (.buildFrame (widx i) p) s = .next (s.respond (.frame f))

/-- The model's choice of log entry 13: a block, or a byte of `FILE` or `TRAIL`, that does not exist faults, by a name
of its own. -/
def Obligations.LocationsThatDoNotExistFault : Prop :=
  ∀ s : State,
    (∀ i : Nat, s.ses.nblk ≤ i → exec (.frameOf i) s = .fault (.noSuchBlock i)) ∧
    (∀ (a : Nat) (b : Byte), s.busy = false → s.par.fileCap ≤ a →
      exec (.hLoad (.byte a b)) s = .fault (.noSuchFileByte a)) ∧
    (∀ a : Nat, s.par.fileCap ≤ a → exec (.hStatus (.reg (.file a))) s = .fault (.noSuchFileByte a)) ∧
    (∀ k : Nat, s.par.trailCap ≤ k → exec (.hStatus (.reg (.trail k))) s = .fault (.noSuchTrailByte k))

/-! ### The engine steps -/

/-- R152: `E_START` and the `H_START` that causes it (R204), from a state in which no session runs; an `H_START` while
one runs is ignored. That an `E_START` offered by name stands for an `H_START` is the model's choice, log entry 11. -/
def Obligations.StartMakesAFreshSession : Prop :=
  ∀ s : State, (s.busy = true → exec .hStart s = .next s) ∧ (s.ses.phase = .idle ∨ s.ses.phase = .done →
    ∃ t, exec .eStart s = .next t ∧ exec .hStart s = .next t ∧
      t.blk = chunk s.fileByte s.cfg.fileLen ∧ t.ses.nblk = nblkOf s.cfg.fileLen ∧
      t.ses.cursor = 0 ∧ t.ses.rpt = 0 ∧ t.ses.outcome = .none ∧ t.ses.cause = .none ∧ t.ses.trailLen = 0 ∧
      t.ses.elapsed = 0 ∧ t.hist = [] ∧ t.ses.phase = .send ∧
      t.par = s.par ∧ t.cfg = s.cfg ∧ (∀ a, t.fileByte a = s.fileByte a) ∧ t.answer = s.answer ∧ SameLine s t ∧
      t.env.agenda = s.env.agenda ∧ t.env.resetPin = s.env.resetPin)

/-- R155, and R178 for its two operations: an attempt, as the transport answers. That a failing write follows the clear,
whose event and effect stay, is log entry 15, and that nothing of it is sent log entry 17. -/
def Obligations.SendClearsThenWritesTheFrame : Prop :=
  ∀ (s : State) (p : Block) (cs ws : List Bool) (c w : Bool),
    s.ses.phase = .send → s.block? s.ses.cursor = some p → s.env.clears = c :: cs → s.env.writes = w :: ws →
    ∃ t, exec .eSend s = .next t ∧ EngineKeeps s t ∧ SameTrail s t ∧ t.waits = s.waits ∧
      (c = true → w = true → SessionIs s t { s.ses with phase := .wait } ∧
        t.hist = s.hist ++ [.clear, .write (buildFrame (widx s.ses.cursor) p)] ∧ t.pending = [] ∧
        t.sent = s.sent ++ [buildFrame (widx s.ses.cursor) p]) ∧
      (c = false → SessionIs s t { s.ses with phase := .done, outcome := .fault, cause := .transportFault } ∧
        t.hist = s.hist ++ [.fault .rxClear] ∧ t.pending = s.pending ∧ t.sent = s.sent) ∧
      (c = true → w = false → SessionIs s t { s.ses with phase := .done, outcome := .fault, cause := .transportFault } ∧
        t.hist = s.hist ++ [.clear, .fault .txWrite] ∧ t.pending = [] ∧ t.sent = s.sent)

/-- Section 3 of 41_engine.md, whatever the transport answers: an attempt always completes, in `WAIT` with the frame of
block `CURSOR` written after a clear, or in `DONE` with `FAULT`. That a failing write follows the clear, whose effect
stays, is log entry 15, and that nothing of it is sent log entry 17. -/
def Obligations.SendCompletesOnEveryAnswer : Prop :=
  ∀ (s : State) (p : Block), s.ses.phase = .send → s.block? s.ses.cursor = some p →
    ∃ t, exec .eSend s = .next t ∧ EngineKeeps s t ∧ SameTrail s t ∧ t.waits = s.waits ∧
      ((SessionIs s t { s.ses with phase := .wait } ∧ t.pending = [] ∧
          t.hist = s.hist ++ [.clear, .write (buildFrame (widx s.ses.cursor) p)] ∧
          t.sent = s.sent ++ [buildFrame (widx s.ses.cursor) p]) ∨
       (SessionIs s t { s.ses with phase := .done, outcome := .fault, cause := .transportFault } ∧ t.sent = s.sent ∧
          (t.hist = s.hist ++ [.fault .rxClear] ∧ t.pending = s.pending ∨
           t.hist = s.hist ++ [.clear, .fault .txWrite] ∧ t.pending = [])))

/-- R158: `E_RESP_ACK`, and the control byte `ACK` that selects it (R96). That the step offered by name, or the byte as an
item, records no wait is log entry 8; that both are the answer of the response read, log entry 10. -/
def Obligations.AckAdvancesTheCursor : Prop :=
  ∀ s : State, s.ses.phase = .wait →
    ∃ t, exec .eRespAck s = .next t ∧ exec .ack s = .next t ∧
      SessionIs s t { s.ses with cursor := s.ses.cursor + 1, rpt := 0, phase := .pace } ∧
      t.hist = s.hist ++ [.read .ack] ∧ t.waits = s.waits ∧ EngineKeeps s t ∧ SameTrail s t ∧ SameLine s t

/-- R162: what a negative signal of class `r` does, and what it leaves alone. -/
def Sys2Proof.Machine.NegativeSignal (i : Instr) (r : Response) (s : State) : Prop :=
  ∃ t, exec i s = .next t ∧
    (s.cfg.retryCeiling < s.ses.rpt + 1 → SessionIs s t
      { s.ses with rpt := s.ses.rpt + 1, outcome := .aborted, cause := .retryExhausted, phase := .drain }) ∧
    (s.ses.rpt + 1 ≤ s.cfg.retryCeiling → SessionIs s t
      { s.ses with rpt := s.ses.rpt + 1, phase := .backoff }) ∧
    t.hist = s.hist ++ [.read r] ∧ t.waits = s.waits ∧ EngineKeeps s t ∧ SameTrail s t ∧ SameLine s t

/-- R159 to R162: the three negative steps and the three items of the line that select them; and that once a session
has left for `DRAIN` no engine step sends anything more in it (the writes excepted here are those offered by name). That a
step offered by name, or an item, records no wait is log entry 8; that both are the answer of the response read, log
entry 10. -/
def Obligations.NegativeSignalCountsOrAborts : Prop :=
  (∀ s : State, s.ses.phase = .wait →
    NegativeSignal .eRespNak .nak s ∧ NegativeSignal .nak .nak s ∧
    NegativeSignal .eRespTimeout .timeout s ∧ NegativeSignal .timeout .timeout s ∧
    ∀ b : Byte, b ≠ 0x06 → b ≠ 0x15 →
      NegativeSignal (.eRespOther b) (.other b) s ∧ NegativeSignal (.other b) (.other b) s) ∧
  ∀ (i : Instr) (s t : State), s.ses.phase = .drain ∨ s.ses.phase = .done → i ≠ .eStart → i ≠ .hStart → i ≠ .hReset →
    exec i s = .next t → (t.ses.phase = .drain ∨ t.ses.phase = .done) ∧
      (t.sent = s.sent ∨ (∃ f, i = .txWrite f) ∨ ∃ idx p, i = .frame idx p)

/-- The model's choice of log entry 10: a frame on the line is a write of its bytes; with no response read outstanding,
a control byte joins the pending input and its absence is nothing. -/
def Obligations.LineItemsOutsideTheResponseRead : Prop :=
  (∀ (idx : Byte) (p : Block) (s : State),
    ∃ t, exec (.frame idx p) s = .next t ∧ exec (.txWrite (buildFrame idx p)) s = .next t) ∧
  ∀ s : State, s.ses.phase ≠ .wait →
    exec .ack s = .next { s with pending := s.pending ++ [0x06] } ∧
    exec .nak s = .next { s with pending := s.pending ++ [0x15] } ∧
    (∀ b : Byte, b ≠ 0x06 → b ≠ 0x15 → exec (.other b) s = .next { s with pending := s.pending ++ [b] }) ∧
    exec .timeout s = .next s

/-- R170: the backoff, with its duration in exact arithmetic. -/
def Obligations.BackoffWaitsThenSendsAgain : Prop :=
  ∀ (u : Rand) (s : State), s.ses.phase = .backoff →
    ∃ t, exec (.eBackoff u) s = .next t ∧ SessionIs s t { s.ses with phase := .send } ∧
      t.hist = s.hist ++ [.sleep .backoff] ∧
      t.waits = s.waits ++
        [⟨.sleep .backoff, s.cfg.backoffBase + (s.ses.rpt : Rat) / s.cfg.backoffDiv * u.val⟩] ∧
      EngineKeeps s t ∧ SameTrail s t ∧ SameLine s t

/-- The random input is a number `u` with `0 <= u < 1`, any rational of that range (section 4 of 41_engine.md; that `u`
is rational is the model's choice, log entry 5). -/
def Obligations.RandomInputFillsTheUnitRange : Prop :=
  (∀ u : Rand, 0 ≤ u.val ∧ u.val < 1) ∧ ∀ q : Rat, 0 ≤ q → q < 1 → ∃ u : Rand, u.val = q

/-- R172. -/
def Obligations.PaceSendsTheNextBlockOrCompletes : Prop :=
  ∀ s : State, s.ses.phase = .pace →
    ∃ t, exec .ePace s = .next t ∧
      (s.ses.cursor = s.ses.nblk → SessionIs s t { s.ses with outcome := .completed, phase := .drain }) ∧
      (s.ses.cursor ≠ s.ses.nblk → SessionIs s t { s.ses with phase := .send }) ∧
      t.hist = s.hist ++ [.sleep .pace] ∧ t.waits = s.waits ++ [⟨.sleep .pace, s.cfg.paceDelay⟩] ∧
      EngineKeeps s t ∧ SameTrail s t ∧ SameLine s t

/-- Section 5 of 41_engine.md: the trailing read, as the transport answers, and the fault of it. That
`EV_SLEEP(FINAL)` stands before `EV_FAULT(RX_READ)` is log entry 15; that what arrives reaches the pending input during
the read, log entry 24; that the bound of a read that faults counts as a wait asked for, the model's choice of log
entry 8. -/
def Obligations.DrainStoresTheTrailingBytes : Prop :=
  ∀ (s : State) (x : Option (List Byte)) (xs : List (Option (List Byte))),
    s.ses.phase = .drain → s.env.tails = x :: xs →
    ∃ t, exec .eDrain s = .next t ∧ EngineKeeps s t ∧ t.sent = s.sent ∧
      t.waits = s.waits ++ [⟨.sleep .final, s.cfg.finalWait⟩, ⟨.read, 0⟩] ∧
      (∀ bs, x = some bs →
        SessionIs s t { s.ses with
          trailLen := BitVec.ofNat 16 ((s.pending ++ bs).take s.par.trailCap).length, phase := .done } ∧
        (∀ k b, ((s.pending ++ bs).take s.par.trailCap)[k]? = some b → t.trailByte k = b) ∧
        (∀ k, ((s.pending ++ bs).take s.par.trailCap).length ≤ k → Memory.read t.trail k = Memory.read s.trail k) ∧
        t.hist = s.hist ++ [.sleep .final, .drain ((s.pending ++ bs).take s.par.trailCap)] ∧
        t.pending = (s.pending ++ bs).drop s.par.trailCap) ∧
      (x = none →
        SessionIs s t { s.ses with phase := .done, outcome := .fault, cause := .transportFault } ∧
        SameTrail s t ∧ t.hist = s.hist ++ [.sleep .final, .fault .rxRead] ∧ t.pending = s.pending)

/-- Section 5 of 41_engine.md, whatever the transport answers: the trailing read always ends the session (that
`EV_SLEEP(FINAL)` stands before a fault of it is log entry 15). -/
def Obligations.DrainCompletesOnEveryAnswer : Prop :=
  ∀ s : State, s.ses.phase = .drain →
    ∃ t, exec .eDrain s = .next t ∧ EngineKeeps s t ∧ t.sent = s.sent ∧
      ((∃ tl : List Byte, tl.length ≤ s.par.trailCap ∧
          SessionIs s t { s.ses with trailLen := BitVec.ofNat 16 tl.length, phase := .done } ∧
          t.trailBytes = tl ∧ t.hist = s.hist ++ [.sleep .final, .drain tl]) ∨
       (SessionIs s t { s.ses with phase := .done, outcome := .fault, cause := .transportFault } ∧
          SameTrail s t ∧ t.hist = s.hist ++ [.sleep .final, .fault .rxRead]))

/-- Section 5 of 41_engine.md: the fault of each transport operation in the phase whose step performs it. Which events
stand before it (`EV_SLEEP(FINAL)` in `DRAIN`, `EV_CLEAR` for a write) and that the pending input is then empty after a
failing write, offered by name too, is log entry 15; that nothing of it is sent, log entry 17. -/
def Obligations.TransportFaultEndsTheSession : Prop :=
  ∀ (s : State) (op : TransportOp) (before : List Event),
    (s.ses.phase = .send ∧ op = .rxClear ∧ before = [] ∨ s.ses.phase = .send ∧ op = .txWrite ∧ before = [.clear] ∨
      s.ses.phase = .wait ∧ op = .rxRead ∧ before = [] ∨
      s.ses.phase = .drain ∧ op = .rxRead ∧ before = [.sleep .final]) →
    ∃ t, exec (.eFault op) s = .next t ∧
      SessionIs s t { s.ses with outcome := .fault, cause := .transportFault, phase := .done } ∧
      t.hist = s.hist ++ before ++ [.fault op] ∧ EngineKeeps s t ∧ SameTrail s t ∧ t.sent = s.sent ∧
      (op ≠ .txWrite → t.pending = s.pending) ∧ (op = .txWrite → t.pending = [])

/-- The model's choice of log entry 11: an engine step whose guard is false is refused, by a name of its own; `E_FAULT`
too, of an operation that is none of the phase's step. -/
def Obligations.DisabledEngineStepIsRefused : Prop :=
  ∀ s : State,
    (s.busy = true → exec .eStart s = .refused (.notEnabled s.ses.phase)) ∧
    (s.ses.phase ≠ .send → exec .eSend s = .refused (.notEnabled s.ses.phase)) ∧
    (s.ses.phase ≠ .wait → exec .eRespAck s = .refused (.notEnabled s.ses.phase) ∧
      exec .eRespNak s = .refused (.notEnabled s.ses.phase) ∧
      exec .eRespTimeout s = .refused (.notEnabled s.ses.phase) ∧
      ∀ b : Byte, b ≠ 0x06 → b ≠ 0x15 → exec (.eRespOther b) s = .refused (.notEnabled s.ses.phase)) ∧
    (s.ses.phase ≠ .backoff → ∀ u, exec (.eBackoff u) s = .refused (.notEnabled s.ses.phase)) ∧
    (s.ses.phase ≠ .pace → exec .ePace s = .refused (.notEnabled s.ses.phase)) ∧
    (s.ses.phase ≠ .drain → exec .eDrain s = .refused (.notEnabled s.ses.phase)) ∧
    ∀ op : TransportOp,
      ¬(s.ses.phase = .send ∧ (op = .rxClear ∨ op = .txWrite) ∨ s.ses.phase = .wait ∧ op = .rxRead ∨
        s.ses.phase = .drain ∧ op = .rxRead) →
      exec (.eFault op) s = .refused (.notEnabled s.ses.phase)

/-! ### The host operations -/

/-- Section 1 of 70_reset_and_hazards.md and section 1 of 42_host_transport.md: reset, by `H_RESET` or by the reset
input. That unspecified contents read as free values, renewed, is log entry 6; that no block exists, log entry 22; that
the step drops the turn offered with the reset and lowers the reset input (`takeTurn`), log entry 18. -/
def Obligations.ResetPutsEveryRegisterAtItsValue : Prop :=
  ∀ s : State, ∃ t, exec .hReset s = .next t ∧ t.par = s.par ∧
    t.ses = { phase := .idle, outcome := .none, cause := .none, cursor := 0, rpt := 0, nblk := 0, elapsed := 0,
              trailLen := 0 } ∧
    t.cfg = { fileLen := 0, retryCeiling := 10, respTimeout := 27 / 10, finalWait := 3, paceDelay := 3 / 100,
              backoffBase := 1 / 10, backoffDiv := 70 } ∧
    t.hist = [] ∧ t.busy = false ∧ t.done = false ∧ t.statusWord = 0 ∧ t.doneOutput = false ∧
    (∀ a, t.fileByte a = Config.freeFile (s.env.fileEpoch + 1) a) ∧
    (∀ i, t.block? i = none) ∧ (∀ k, t.trailByte k = Config.freeTrail (s.env.trailEpoch + 1) k) ∧
    SameLine s t ∧ t.env.agenda = s.env.agenda ∧
    (s.env.resetPin = true → step s = exec .hReset (takeTurn s))

/-- The state after reset that the model starts from (section 1 of 70_reset_and_hazards.md), with the parameters at the
defaults of section 3 of 00_scope.md. -/
def Obligations.ResetStateValues : Prop :=
  State.reset.par = { cursorBits := 32, lenBits := 39, fileCap := 128 * (2 ^ 32 - 1), rptBits := 8, trailCap := 256,
                      elapsedBits := 32 } ∧
  State.reset.ses = { phase := .idle, outcome := .none, cause := .none, cursor := 0, rpt := 0, nblk := 0,
                      elapsed := 0, trailLen := 0 } ∧
  State.reset.cfg = { fileLen := 0, retryCeiling := 10, respTimeout := 27 / 10, finalWait := 3, paceDelay := 3 / 100,
                      backoffBase := 1 / 10, backoffDiv := 70 } ∧
  State.reset.hist = [] ∧ State.reset.file = [] ∧ State.reset.blk = [] ∧ State.reset.trail = [] ∧
  State.reset.statusWord = 0 ∧ State.reset.doneOutput = false

/-- Section 1 of 42_host_transport.md: `H_LOAD`, and that it is ignored while a session runs. Its forms for one byte of
`FILE` and for `FILE_LEN` alone are log entry 21; that a `FILE_LEN` above `FILE_CAP` is ignored is R35. -/
def Obligations.LoadWritesTheFile : Prop :=
  ∀ s : State, (s.busy = true → ∀ l, exec (.hLoad l) s = .next s) ∧ (s.busy = false →
    (∀ bs : List Byte, bs.length ≤ s.par.fileCap → ∃ t, exec (.hLoad (.whole bs)) s = .next t ∧
      (∀ k b, bs[k]? = some b → t.fileByte k = b) ∧ (∀ a, bs.length ≤ a → t.fileByte a = s.fileByte a) ∧
      t.cfg = { s.cfg with fileLen := bs.length } ∧ t = { s with file := t.file, cfg := t.cfg }) ∧
    (∀ (a : Nat) (b : Byte), a < s.par.fileCap → ∃ t, exec (.hLoad (.byte a b)) s = .next t ∧
      t.fileByte a = b ∧ (∀ k, k ≠ a → t.fileByte k = s.fileByte k) ∧ t = { s with file := t.file }) ∧
    (∀ n : Nat, n ≤ s.par.fileCap →
      exec (.hLoad (.length n)) s = .next { s with cfg := { s.cfg with fileLen := n } }) ∧
    (∀ n : Nat, s.par.fileCap < n → exec (.hLoad (.length n)) s = .next s))

/-- R203: `H_CFG`; a value that is not legal is ignored, and so is any while a session runs. -/
def Obligations.CfgWritesALegalValue : Prop :=
  ∀ s : State, (s.busy = true → ∀ c, exec (.hCfg c) s = .next s) ∧ (s.busy = false →
    (∀ v : Nat, exec (.hCfg (.retryCeiling v)) s =
      .next (if v + 2 ≤ 2 ^ s.par.rptBits then { s with cfg := { s.cfg with retryCeiling := v } } else s)) ∧
    (∀ d : Rat, exec (.hCfg (.respTimeout d)) s =
      .next (if 0 ≤ d then { s with cfg := { s.cfg with respTimeout := d } } else s)) ∧
    (∀ d : Rat, exec (.hCfg (.finalWait d)) s =
      .next (if 0 ≤ d then { s with cfg := { s.cfg with finalWait := d } } else s)) ∧
    (∀ d : Rat, exec (.hCfg (.paceDelay d)) s =
      .next (if 0 ≤ d then { s with cfg := { s.cfg with paceDelay := d } } else s)) ∧
    (∀ d : Rat, exec (.hCfg (.backoffBase d)) s =
      .next (if 0 ≤ d then { s with cfg := { s.cfg with backoffBase := d } } else s)) ∧
    (∀ d : Rat, exec (.hCfg (.backoffDiv d)) s =
      .next (if 0 < d then { s with cfg := { s.cfg with backoffDiv := d } } else s)))

/-- Section 4 of 10_state.md and section 3 of 60_exceptions.md: while `BUSY`, the host's writes and `H_START` have no
effect and raise no fault. -/
def Obligations.HostWritesAreIgnoredWhileBusy : Prop :=
  ∀ s : State, s.busy = true →
    (∀ l, exec (.hLoad l) s = .next s) ∧ (∀ c, exec (.hCfg c) s = .next s) ∧ exec .hStart s = .next s

/-- R205: `H_STATUS`. The reads of one register or byte by name, of each that the table in section 7 of 10_state.md
opens to the host, are forms of it by log entry 21. -/
def Obligations.StatusIsReadWithoutSideEffect : Prop :=
  ∀ s : State,
    exec (.hStatus .poll) s = .next (s.respond (.status
      { status := s.statusWord, cursor := s.ses.cursor, rpt := s.ses.rpt, nblk := s.ses.nblk,
        elapsed := s.ses.elapsed })) ∧
    (∀ r n, (r, n) ∈ [(HostReg.status, s.statusWord.toNat), (.phase, s.ses.phase.code.toNat),
        (.outcome, s.ses.outcome.code.toNat), (.cause, s.ses.cause.code.toNat), (.cursor, s.ses.cursor),
        (.rpt, s.ses.rpt), (.nblk, s.ses.nblk), (.elapsed, s.ses.elapsed), (.trailLen, s.ses.trailLen.toNat),
        (.fileLen, s.cfg.fileLen), (.retryCeiling, s.cfg.retryCeiling)] →
      exec (.hStatus (.reg r)) s = .next (s.respond (.reg (.word n)))) ∧
    (∀ r d, (r, d) ∈ [(HostReg.respTimeout, s.cfg.respTimeout), (.finalWait, s.cfg.finalWait),
        (.paceDelay, s.cfg.paceDelay), (.backoffBase, s.cfg.backoffBase), (.backoffDiv, s.cfg.backoffDiv)] →
      exec (.hStatus (.reg r)) s = .next (s.respond (.reg (.duration d)))) ∧
    (∀ a : Nat, a < s.par.fileCap →
      exec (.hStatus (.reg (.file a))) s = .next (s.respond (.reg (.byte (s.fileByte a))))) ∧
    (∀ k : Nat, k < s.par.trailCap →
      exec (.hStatus (.reg (.trail k))) s = .next (s.respond (.reg (.byte (s.trailByte k)))))

/-- R33, R34, with the codes of section 3 of 30_encoding.md: the flags, every bit of `STATUS`, and the output `done`
(section 1 of 42_host_transport.md). -/
def Obligations.StatusWordHoldsTheFields : Prop :=
  ∀ s : State,
    (s.busy = true ↔ s.ses.phase = .send ∨ s.ses.phase = .wait ∨ s.ses.phase = .backoff ∨ s.ses.phase = .pace ∨
      s.ses.phase = .drain) ∧
    (s.done = true ↔ s.ses.phase = .done) ∧ (s.fCompleted = true ↔ s.ses.phase = .done ∧ s.ses.outcome = .completed) ∧
    (s.fAborted = true ↔ s.ses.phase = .done ∧ s.ses.outcome = .aborted) ∧
    (s.fFault = true ↔ s.ses.phase = .done ∧ s.ses.outcome = .fault) ∧
    ¬(s.busy = true ∧ s.done = true) ∧
    s.statusWord.getLsbD 0 = s.busy ∧ s.statusWord.getLsbD 1 = s.done ∧
    s.statusWord.extractLsb' 2 2 = s.ses.outcome.code ∧ s.statusWord.extractLsb' 4 3 = s.ses.phase.code ∧
    s.statusWord.getLsbD 7 = false ∧ s.statusWord.extractLsb' 8 3 = s.ses.cause.code ∧
    s.statusWord.extractLsb' 11 5 = 0 ∧ (∀ v, exec (.hCfg (.status v)) s = .next s) ∧
    ([.none, .completed, .aborted, .fault] : List SessionOutcome).map SessionOutcome.code = [0, 1, 2, 3] ∧
    ([.idle, .send, .wait, .backoff, .pace, .drain, .done] : List Phase).map Phase.code = [0, 1, 2, 3, 4, 5, 6] ∧
    ([.none, .retryExhausted, .transportFault, .invalidPayloadSize, .emptyInput] : List Cause).map Cause.code =
      [0, 1, 2, 3, 4] ∧
    (∀ p : Phase, p.code ≠ 7) ∧ s.doneOutput = s.done ∧ State.reset.statusWord = 0 ∧
    (State.reset.busy || State.reset.done || State.reset.fCompleted || State.reset.fAborted ||
      State.reset.fFault) = false

/-- R31, a rule that the spec marks as derived: the source's state, and that in good states no other combination of
`PHASE` and `OUTCOME` occurs. -/
def Obligations.SourceStateFollowsPhaseAndOutcome : Prop :=
  ∀ s : State,
    (s.ses.phase = .send ∨ s.ses.phase = .wait ∨ s.ses.phase = .backoff → s.sourceState = some .awaitingResponse) ∧
    (s.ses.phase = .pace → s.sourceState = some .advancing) ∧
    (s.ses.phase = .drain ∨ s.ses.phase = .done → s.ses.outcome = .completed → s.sourceState = some .completed) ∧
    (s.ses.phase = .drain ∨ s.ses.phase = .done → s.ses.outcome = .aborted → s.sourceState = some .aborted) ∧
    (s.ses.phase = .done → s.ses.outcome = .fault → s.sourceState = some .faulted) ∧
    (s.ses.phase = .idle → s.sourceState = none) ∧
    (s.Good →
      (s.ses.outcome = .none ↔ s.ses.phase = .idle ∨ s.ses.phase = .send ∨ s.ses.phase = .wait ∨
        s.ses.phase = .backoff ∨ s.ses.phase = .pace) ∧
      ¬(s.ses.phase = .drain ∧ s.ses.outcome = .fault) ∧ (s.sourceState = none ↔ s.ses.phase = .idle))

/-- Section 1 of 42_host_transport.md: `H_RESULT`, the outcome summary. -/
def Obligations.ResultReportsTheSession : Prop :=
  ∀ s : State,
    exec .hResult s = .next (s.respond (.result
      { cursor := s.ses.cursor, nblk := s.ses.nblk, elapsed := s.ses.elapsed,
        trail := (List.range s.ses.trailLen.toNat).map s.trailByte, trailLen := s.ses.trailLen,
        outcome := s.ses.outcome, cause := s.ses.cause }))

/-! ### The transport operations -/

/-- Section 2 of 42_host_transport.md: `TX_WRITE` of a frame, whatever the transport answers. That it adds no event and
changes no register when offered by name, and refuses what is no frame, is log entry 16; that nothing of a failing write
is sent, log entry 17. -/
def Obligations.WriteSendsTheBytesOrFaults : Prop :=
  ∀ (s : State) (f : List Byte),
    (∀ idx p, f = buildFrame idx p →
      ∃ t, exec (.txWrite f) s = .next t ∧ TransportKeeps s t ∧ t.waits = s.waits ∧ t.pending = s.pending ∧
        (t.answer = .success ∧ t.sent = s.sent ++ [f] ∨ t.answer = .transportFault ∧ t.sent = s.sent) ∧
        ∀ w ws, s.env.writes = w :: ws → (t.answer = .success ↔ w = true)) ∧
    ((¬∃ idx p, f = buildFrame idx p) → exec (.txWrite f) s = .refused .operandOutOfDomain)

/-- Section 2 of 42_host_transport.md: `RX_READ`, whatever the transport answers, `bs` being what arrives by its end
(log entry 24). That it adds no event and changes no register when offered by name is log entry 16; that a read of one
byte and any other have inputs of their own, log entry 20; that a read that faults, by name too, counts as a wait asked
for, the model's choice of log entry 8. -/
def Obligations.ReadTakesThePendingBytes : Prop :=
  ∀ (s : State) (n : Nat) (d : Rat), 0 ≤ d →
    ∃ t, exec (.rxRead n d) s = .next t ∧ TransportKeeps s t ∧ t.sent = s.sent ∧ t.waits = s.waits ++ [⟨.read, d⟩] ∧
      (∀ bs u, drawArrivals (readUse n) (s.askWait .read d) = (some bs, u) →
        t.answer = .received ((s.pending ++ bs).take n) ∧ t.pending = (s.pending ++ bs).drop n) ∧
      (∀ u, drawArrivals (readUse n) (s.askWait .read d) = (none, u) → t.answer = .transportFault ∧ t.pending = s.pending) ∧
      (∀ bs xs, (n = 1 ∧ s.env.reads = some bs :: xs ∨ n ≠ 1 ∧ s.env.tails = some bs :: xs) →
        t.answer = .received ((s.pending ++ bs).take n) ∧ t.pending = (s.pending ++ bs).drop n) ∧
      (∀ xs, (n = 1 ∧ s.env.reads = none :: xs ∨ n ≠ 1 ∧ s.env.tails = none :: xs) →
        t.answer = .transportFault ∧ t.pending = s.pending)

/-- Section 2 of 42_host_transport.md: `RX_CLEAR`, whatever the transport answers. That it adds no event and changes no
register when offered by name is log entry 16. -/
def Obligations.ClearEmptiesThePendingInput : Prop :=
  ∀ s : State, ∃ t, exec .rxClear s = .next t ∧ TransportKeeps s t ∧ t.waits = s.waits ∧ t.sent = s.sent ∧
    (t.answer = .success ∧ t.pending = [] ∨ t.answer = .transportFault ∧ t.pending = s.pending) ∧
    ∀ c cs, s.env.clears = c :: cs → (t.answer = .success ↔ c = true)

/-! ### The step -/

/-- A step runs the decoded item, or the operation offered by name (the turns are log entry 2); bytes that are no item
are refused as undecodable (log entry 14). -/
def Obligations.StepRunsTheOperationThatIsNext : Prop :=
  ∀ (s : State) (rest : List Turn), s.env.resetPin = false →
    (∀ bs i, s.env.agenda = .line bs :: rest → decode bs = .ok i →
      step s = exec i { s with env := { s.env with agenda := rest } }) ∧
    (∀ i, s.env.agenda = .offer i :: rest → step s = exec i { s with env := { s.env with agenda := rest } }) ∧
    (∀ bs e, s.env.agenda = .line bs :: rest → decode bs = .error e → step s = .refused (.undecodable e))

/-- Section 1 of 41_engine.md: with the engine to move, no turn being listed or its own being the first, the step of
each phase; `IDLE` and `DONE` wait for the host. -/
def Obligations.EngineTakesTheEnabledStep : Prop :=
  ∀ s u : State, s.env.resetPin = false →
    (s.env.agenda = [] ∧ u = s ∨
      ∃ rest, s.env.agenda = .engine :: rest ∧ u = { s with env := { s.env with agenda := rest } }) →
    (s.ses.phase = .idle ∨ s.ses.phase = .done → step s = .next u) ∧
    (s.ses.phase = .send → step s = exec .eSend u) ∧
    (s.ses.phase = .backoff → ∃ r, step s = exec (.eBackoff r) (drawRandom u).2) ∧
    (s.ses.phase = .pace → step s = exec .ePace u) ∧
    (s.ses.phase = .drain → step s = exec .eDrain u) ∧
    (s.ses.phase = .wait →
      (∀ t, rxRead .response 1 u.cfg.respTimeout u = (none, t) → step s = exec (.eFault .rxRead) t) ∧
      (∀ r t, rxRead .response 1 u.cfg.respTimeout u = (some r, t) → ∃ i, decode r = .ok i ∧ step s = exec i t))

/-- Section 1 of 41_engine.md, "in every phase exactly one step is enabled": from a good state the engine's own step
never stops, whatever the transport answers. -/
def Obligations.EngineNeverStops : Prop :=
  ∀ s : State, s.Good → s.env.resetPin = false → s.env.agenda = [] → ∃ t, step s = .next t

/-! ### Invariants -/

/-- The state after reset is good. -/
def Obligations.ResetIsGood : Prop := State.reset.Good

/-- Every step from a good state, the offer of any operation included, leads to a good state with the same parameters:
the bounds of R24 (of `RPT`, by the ceiling its session ran with, log entry 12), every register within its width (R9),
`OUTCOME` `NONE` exactly in the phases of R31, `CURSOR` as R206 relates it to the outcome, the memories in canonical
form inside their spaces. -/
def Obligations.StepKeepsGood : Prop :=
  ∀ s t : State, s.Good → step s = .next t → t.Good ∧ t.par = s.par

/-- The empty history of reset agrees with the registers. -/
def Obligations.ResetHistoryAgrees : Prop := State.reset.HistoryOk

/-- Section 6 of 41_engine.md: every step keeps what the event history says of the registers: `CURSOR` counts the ACKs,
`RPT` the negative signals since the last one, block `CURSOR` has been written `RPT` or `RPT + 1` times with the same
frame, writes and reads alternate, and the writes stay within `CURSOR * (RETRY_CEILING + 1)` and those of the block. -/
def Obligations.StepKeepsHistory : Prop :=
  ∀ s t : State, s.Good → s.HistoryOk → step s = .next t → t.HistoryOk

/-! ### Whole-machine rules -/

/-- R21: `CURSOR` advances by exactly 1 on each ACK and by nothing else, but that a start and a reset put it to 0. -/
def Obligations.CursorMovesOnlyOnAck : Prop :=
  ∀ (i : Instr) (s t : State), exec i s = .next t →
    t.ses.cursor = s.ses.cursor ∨ (s.ses.phase = .wait ∧ (i = .ack ∨ i = .eRespAck) ∧ t.ses.cursor = s.ses.cursor + 1) ∨
    ((i = .eStart ∨ i = .hStart ∨ i = .hReset) ∧ t.ses.cursor = 0)

/-- Sections 4 and 5 of 10_state.md: while `BUSY`, nothing but reset changes the configuration, `FILE` or `BLK`. -/
def Obligations.SessionIsLockedWhileBusy : Prop :=
  ∀ (i : Instr) (s t : State), s.busy = true → i ≠ .hReset → exec i s = .next t → t.cfg = s.cfg ∧ SameStores s t

/-- Section 4 of 60_exceptions.md: `DONE` is left only by a start or a reset, and until then the results stay. -/
def Obligations.ResultsStayUntilStartOrReset : Prop :=
  ∀ (i : Instr) (s t : State), s.ses.phase = .done → i ≠ .hReset → i ≠ .hStart → i ≠ .eStart → exec i s = .next t →
    t.ses = s.ses ∧ SameTrail s t ∧ t.hist = s.hist

/-- Section 1 of 60_exceptions.md: only a transport operation of the engine puts a session to `FAULT`. -/
def Obligations.OnlyTransportFaultsGoWrong : Prop :=
  ∀ (i : Instr) (s t : State), exec i s = .next t → t.goneWrong → ¬s.goneWrong →
    (i = .eSend ∨ i = .eDrain ∨ ∃ op, i = .eFault op) ∧ t.ses.phase = .done ∧ t.ses.cause = .transportFault ∧
    ∃ op h, t.hist = h ++ [.fault op]

/-- Section 1 of 20_memory.md: nothing but `E_SEND`, and a write offered by name, puts bytes on the outgoing stream,
and `E_SEND` puts the frame of block `CURSOR` or nothing. -/
def Obligations.OnlyFramesGoOut : Prop :=
  ∀ (i : Instr) (s t : State), exec i s = .next t →
    t.sent = s.sent ∨ (∃ p, i = .eSend ∧ s.block? s.ses.cursor = some p ∧
        t.sent = s.sent ++ [buildFrame (widx s.ses.cursor) p]) ∨
    ∃ idx p, (i = .txWrite (buildFrame idx p) ∨ i = .frame idx p) ∧ t.sent = s.sent ++ [buildFrame idx p]

/-- Section 1 of 20_memory.md, "frames and nothing else": if all that has been sent is frames, so it is after any step
of any agent. -/
def Obligations.EverythingSentIsAFrame : Prop :=
  ∀ s t : State, (∀ f ∈ s.sent, ∃ idx p, f = buildFrame idx p) → step s = .next t →
    ∀ f ∈ t.sent, ∃ idx p, f = buildFrame idx p

/-- Section 2 of 10_state.md: no operation but a start or a reset lowers `ELAPSED`; an engine step, or the item of the
line that selects one, adds the amount that its input says (cut at the register's width, log entry 4); and no other
operation changes it. -/
def Obligations.ElapsedNeverFalls : Prop :=
  ∀ (i : Instr) (s t : State), exec i s = .next t → i ≠ .eStart → i ≠ .hStart → i ≠ .hReset →
    s.ses.elapsed ≤ t.ses.elapsed ∧
    (i.isEngineStep = true ∨ i.isControl = true ∧ s.ses.phase = .wait →
      ∀ d ds, s.env.elapses = d :: ds → s.ses.elapsed < 2 ^ s.par.elapsedBits →
        t.ses.elapsed = min (s.ses.elapsed + d) (2 ^ s.par.elapsedBits - 1)) ∧
    (¬(i.isEngineStep = true ∨ i.isControl = true ∧ s.ses.phase = .wait) → t.ses.elapsed = s.ses.elapsed)

/-- Every operation of the table has a meaning, and a well-formed one is never refused for its operands (the refusal is
the model's, log entry 11). -/
def Obligations.EveryOperationHasAMeaning : Prop :=
  ∀ (i : Instr) (s : State), (∀ m, exec i s ≠ .refused (.notModelled m)) ∧
    (i.wellFormed s.par = true → exec i s ≠ .refused .operandOutOfDomain)

/-! ### Sessions -/

/-- Section 6 of 41_engine.md: every session ends, within three steps an attempt and one for the trailing read, with
at most `NBLK * (RETRY_CEILING + 1)` attempts, whatever the transport answers. The agenda is empty: no other agent moves
in between (log entry 2). -/
def Obligations.EverySessionEnds : Prop :=
  ∀ s : State, s.Good → s.busy = true → s.env.resetPin = false → s.env.agenda = [] →
    ∃ t, Host.Core.run Sys2Proof.core (3 * (s.ses.nblk * (s.cfg.retryCeiling + 1)) + 1) s = .next t ∧
      t.ses.phase = .done

/-- Section 6 of 41_engine.md: started from `IDLE` or `DONE` on a transport without faults, the engine ends the session
as the function `run` of the answers says. -/
def Obligations.SessionAgreesWithRun : Prop :=
  ∀ (s : State) (as : List Response) (r : RunResult) (cs ws : List Bool) (rs ts : List (Option (List Byte)))
    (tl : List Byte),
    s.Good → s.busy = false → s.env.resetPin = false → s.env.agenda = [.offer .hStart] →
    (∀ b, Response.other b ∈ as → b ≠ 0x06 ∧ b ≠ 0x15) →
    runSession (nblkOf s.cfg.fileLen) s.cfg.retryCeiling as = some r →
    s.env.clears = List.replicate r.nwrites true ++ cs → s.env.writes = List.replicate r.nwrites true ++ ws →
    s.env.reads = (as.take r.nwrites).map (fun a => some a.answer) ++ rs → s.env.tails = some tl :: ts →
    ∃ n t, Host.Core.run Sys2Proof.core n s = .next t ∧ t.ses.phase = .done ∧ t.ses.outcome = r.outcome ∧
      t.ses.cursor = r.cursor ∧ t.ses.rpt = r.rpt ∧ nwrites t.hist = r.nwrites

/-- Section 6 of 41_engine.md, the engine properties the source lists, on the function `run`. -/
def Obligations.RunHasTheSourceProperties : Prop :=
  (∀ n c : Nat, 1 ≤ n → runSession n c (List.replicate n .ack) = some ⟨.completed, n, 0, n⟩) ∧
  (∀ n c : Nat, 1 ≤ n → runSession n c (List.replicate (c + 1) .nak) = some ⟨.aborted, 0, c + 1, c + 1⟩) ∧
  (∀ n c : Nat, 1 ≤ n → 1 ≤ c →
    runSession n c (List.replicate n [Response.nak, Response.ack]).flatten = some ⟨.completed, n, 0, 2 * n⟩) ∧
  runSession 3 10 [.ack, .nak, .ack, .ack] = some ⟨.completed, 3, 0, 4⟩
end

