-- ==== Sys2Proof/Laws/Framer.lean ====
section
/-! SUPPORT. The Framer's functions: lengths and places of bytes. -/

namespace Sys2Proof.Machine

/-- Every frame has 132 bytes (R90). -/
theorem buildFrame_length (idx : Byte) (p : Block) : (buildFrame idx p).length = 132 := by
  simp [buildFrame, p.len]

/-- The encoder's layout (R90) and `BUILD_FRAME` (R130) are the same bytes. -/
theorem frameLayout_eq_buildFrame (idx : Byte) (p : Block) : frameLayout idx p = buildFrame idx p := by
  simp [frameLayout, buildFrame, checksum, payloadSum]

/-- The Framer makes `NBLK_OF(N)` blocks (R123). -/
theorem chunk_length (file : Nat → Byte) (n : Nat) : (chunk file n).length = nblkOf n := by
  simp [chunk]

/-- Block `i` of the file. -/
theorem chunk_getElem? (file : Nat → Byte) (n i : Nat) (h : i < nblkOf n) :
    (chunk file n)[i]? = some (chunkBlock file n i) := by
  simp [chunk, h]

/-- Byte `j` of a padded group: the group's own byte, else `0x1A` (R121). -/
theorem padBytes_getElem? (g : List Byte) (j : Nat) (h : j < 128) :
    (padBytes g)[j]? = some (g[j]?.getD Config.PAD) := by
  unfold padBytes
  by_cases hj : j < g.length
  · simp [List.getElem?_append_left hj, hj]
  · rw [List.getElem?_append_right (by omega), List.getElem?_replicate]
    simp only [Config.BLOCK_SIZE]
    rw [if_pos (by omega), List.getElem?_eq_none (by omega)]
    rfl

/-- Every file has at least one block, and `NBLK` fits its register (R24, R122). -/
theorem nblkOf_bounds (q : Parameters) (n : Nat) (hq : q.Legal) (h : n ≤ q.fileCap) :
    1 ≤ nblkOf n ∧ nblkOf n < 2 ^ q.cursorBits := by
  obtain ⟨h1, -, h2, -⟩ := hq
  unfold nblkOf
  generalize 2 ^ q.cursorBits = m at *
  split <;> omega

/-- The frames are exactly what `BUILD_FRAME` makes (R63, R130). -/
theorem isFrame_iff (s : List Byte) : isFrame s = true ↔ ∃ idx p, s = buildFrame idx p := by
  unfold isFrame
  constructor
  · intro h
    split at h
    · exact ⟨_, _, by simpa using h⟩
    · cases h
  · rintro ⟨idx, p, rfl⟩
    simp [p.len, buildFrame]

/-- `BUILD_FRAME` makes frames. -/
theorem buildFrame_isFrame (idx : Byte) (p : Block) : isFrame (buildFrame idx p) = true :=
  (isFrame_iff _).2 ⟨idx, p, rfl⟩

end Sys2Proof.Machine
end

