-- ==== Sys2Proof/Laws/State.lean ====
section
/-! SUPPORT. One lemma per field per update of `State`, each true by `rfl`, so that no proof unfolds a record update. -/

namespace Sys2Proof.Machine.State

variable (s : State)

@[simp] theorem setSes_ses (x : Session) : (s.setSes x).ses = x := rfl
@[simp] theorem setSes_cfg (x : Session) : (s.setSes x).cfg = s.cfg := rfl
@[simp] theorem setSes_par (x : Session) : (s.setSes x).par = s.par := rfl
@[simp] theorem setSes_lockedCeiling (x : Session) : (s.setSes x).lockedCeiling = s.lockedCeiling := rfl
@[simp] theorem setSes_file (x : Session) : (s.setSes x).file = s.file := rfl
@[simp] theorem setSes_blk (x : Session) : (s.setSes x).blk = s.blk := rfl
@[simp] theorem setSes_trail (x : Session) : (s.setSes x).trail = s.trail := rfl
@[simp] theorem setSes_hist (x : Session) : (s.setSes x).hist = s.hist := rfl
@[simp] theorem setSes_waits (x : Session) : (s.setSes x).waits = s.waits := rfl
@[simp] theorem setSes_answer (x : Session) : (s.setSes x).answer = s.answer := rfl
@[simp] theorem setSes_pending (x : Session) : (s.setSes x).pending = s.pending := rfl
@[simp] theorem setSes_sent (x : Session) : (s.setSes x).sent = s.sent := rfl
@[simp] theorem setSes_env (x : Session) : (s.setSes x).env = s.env := rfl

@[simp] theorem setCfg_ses (x : Settings) : (s.setCfg x).ses = s.ses := rfl
@[simp] theorem setCfg_cfg (x : Settings) : (s.setCfg x).cfg = x := rfl
@[simp] theorem setCfg_par (x : Settings) : (s.setCfg x).par = s.par := rfl
@[simp] theorem setCfg_lockedCeiling (x : Settings) : (s.setCfg x).lockedCeiling = s.lockedCeiling := rfl
@[simp] theorem setCfg_file (x : Settings) : (s.setCfg x).file = s.file := rfl
@[simp] theorem setCfg_blk (x : Settings) : (s.setCfg x).blk = s.blk := rfl
@[simp] theorem setCfg_trail (x : Settings) : (s.setCfg x).trail = s.trail := rfl
@[simp] theorem setCfg_hist (x : Settings) : (s.setCfg x).hist = s.hist := rfl
@[simp] theorem setCfg_waits (x : Settings) : (s.setCfg x).waits = s.waits := rfl
@[simp] theorem setCfg_answer (x : Settings) : (s.setCfg x).answer = s.answer := rfl
@[simp] theorem setCfg_pending (x : Settings) : (s.setCfg x).pending = s.pending := rfl
@[simp] theorem setCfg_sent (x : Settings) : (s.setCfg x).sent = s.sent := rfl
@[simp] theorem setCfg_env (x : Settings) : (s.setCfg x).env = s.env := rfl

@[simp] theorem setFile_ses (x : Memory) : (s.setFile x).ses = s.ses := rfl
@[simp] theorem setFile_cfg (x : Memory) : (s.setFile x).cfg = s.cfg := rfl
@[simp] theorem setFile_par (x : Memory) : (s.setFile x).par = s.par := rfl
@[simp] theorem setFile_lockedCeiling (x : Memory) : (s.setFile x).lockedCeiling = s.lockedCeiling := rfl
@[simp] theorem setFile_file (x : Memory) : (s.setFile x).file = x := rfl
@[simp] theorem setFile_blk (x : Memory) : (s.setFile x).blk = s.blk := rfl
@[simp] theorem setFile_trail (x : Memory) : (s.setFile x).trail = s.trail := rfl
@[simp] theorem setFile_hist (x : Memory) : (s.setFile x).hist = s.hist := rfl
@[simp] theorem setFile_waits (x : Memory) : (s.setFile x).waits = s.waits := rfl
@[simp] theorem setFile_answer (x : Memory) : (s.setFile x).answer = s.answer := rfl
@[simp] theorem setFile_pending (x : Memory) : (s.setFile x).pending = s.pending := rfl
@[simp] theorem setFile_sent (x : Memory) : (s.setFile x).sent = s.sent := rfl
@[simp] theorem setFile_env (x : Memory) : (s.setFile x).env = s.env := rfl

@[simp] theorem setBlk_ses (x : List Block) : (s.setBlk x).ses = s.ses := rfl
@[simp] theorem setBlk_cfg (x : List Block) : (s.setBlk x).cfg = s.cfg := rfl
@[simp] theorem setBlk_par (x : List Block) : (s.setBlk x).par = s.par := rfl
@[simp] theorem setBlk_lockedCeiling (x : List Block) : (s.setBlk x).lockedCeiling = s.lockedCeiling := rfl
@[simp] theorem setBlk_file (x : List Block) : (s.setBlk x).file = s.file := rfl
@[simp] theorem setBlk_blk (x : List Block) : (s.setBlk x).blk = x := rfl
@[simp] theorem setBlk_trail (x : List Block) : (s.setBlk x).trail = s.trail := rfl
@[simp] theorem setBlk_hist (x : List Block) : (s.setBlk x).hist = s.hist := rfl
@[simp] theorem setBlk_waits (x : List Block) : (s.setBlk x).waits = s.waits := rfl
@[simp] theorem setBlk_answer (x : List Block) : (s.setBlk x).answer = s.answer := rfl
@[simp] theorem setBlk_pending (x : List Block) : (s.setBlk x).pending = s.pending := rfl
@[simp] theorem setBlk_sent (x : List Block) : (s.setBlk x).sent = s.sent := rfl
@[simp] theorem setBlk_env (x : List Block) : (s.setBlk x).env = s.env := rfl

@[simp] theorem setTrail_ses (x : Memory) : (s.setTrail x).ses = s.ses := rfl
@[simp] theorem setTrail_cfg (x : Memory) : (s.setTrail x).cfg = s.cfg := rfl
@[simp] theorem setTrail_par (x : Memory) : (s.setTrail x).par = s.par := rfl
@[simp] theorem setTrail_lockedCeiling (x : Memory) : (s.setTrail x).lockedCeiling = s.lockedCeiling := rfl
@[simp] theorem setTrail_file (x : Memory) : (s.setTrail x).file = s.file := rfl
@[simp] theorem setTrail_blk (x : Memory) : (s.setTrail x).blk = s.blk := rfl
@[simp] theorem setTrail_trail (x : Memory) : (s.setTrail x).trail = x := rfl
@[simp] theorem setTrail_hist (x : Memory) : (s.setTrail x).hist = s.hist := rfl
@[simp] theorem setTrail_waits (x : Memory) : (s.setTrail x).waits = s.waits := rfl
@[simp] theorem setTrail_answer (x : Memory) : (s.setTrail x).answer = s.answer := rfl
@[simp] theorem setTrail_pending (x : Memory) : (s.setTrail x).pending = s.pending := rfl
@[simp] theorem setTrail_sent (x : Memory) : (s.setTrail x).sent = s.sent := rfl
@[simp] theorem setTrail_env (x : Memory) : (s.setTrail x).env = s.env := rfl

@[simp] theorem setPending_ses (x : List Byte) : (s.setPending x).ses = s.ses := rfl
@[simp] theorem setPending_cfg (x : List Byte) : (s.setPending x).cfg = s.cfg := rfl
@[simp] theorem setPending_par (x : List Byte) : (s.setPending x).par = s.par := rfl
@[simp] theorem setPending_lockedCeiling (x : List Byte) : (s.setPending x).lockedCeiling = s.lockedCeiling := rfl
@[simp] theorem setPending_file (x : List Byte) : (s.setPending x).file = s.file := rfl
@[simp] theorem setPending_blk (x : List Byte) : (s.setPending x).blk = s.blk := rfl
@[simp] theorem setPending_trail (x : List Byte) : (s.setPending x).trail = s.trail := rfl
@[simp] theorem setPending_hist (x : List Byte) : (s.setPending x).hist = s.hist := rfl
@[simp] theorem setPending_waits (x : List Byte) : (s.setPending x).waits = s.waits := rfl
@[simp] theorem setPending_answer (x : List Byte) : (s.setPending x).answer = s.answer := rfl
@[simp] theorem setPending_pending (x : List Byte) : (s.setPending x).pending = x := rfl
@[simp] theorem setPending_sent (x : List Byte) : (s.setPending x).sent = s.sent := rfl
@[simp] theorem setPending_env (x : List Byte) : (s.setPending x).env = s.env := rfl

@[simp] theorem setSent_ses (x : List (List Byte)) : (s.setSent x).ses = s.ses := rfl
@[simp] theorem setSent_cfg (x : List (List Byte)) : (s.setSent x).cfg = s.cfg := rfl
@[simp] theorem setSent_par (x : List (List Byte)) : (s.setSent x).par = s.par := rfl
@[simp] theorem setSent_lockedCeiling (x : List (List Byte)) : (s.setSent x).lockedCeiling = s.lockedCeiling := rfl
@[simp] theorem setSent_file (x : List (List Byte)) : (s.setSent x).file = s.file := rfl
@[simp] theorem setSent_blk (x : List (List Byte)) : (s.setSent x).blk = s.blk := rfl
@[simp] theorem setSent_trail (x : List (List Byte)) : (s.setSent x).trail = s.trail := rfl
@[simp] theorem setSent_hist (x : List (List Byte)) : (s.setSent x).hist = s.hist := rfl
@[simp] theorem setSent_waits (x : List (List Byte)) : (s.setSent x).waits = s.waits := rfl
@[simp] theorem setSent_answer (x : List (List Byte)) : (s.setSent x).answer = s.answer := rfl
@[simp] theorem setSent_pending (x : List (List Byte)) : (s.setSent x).pending = s.pending := rfl
@[simp] theorem setSent_sent (x : List (List Byte)) : (s.setSent x).sent = x := rfl
@[simp] theorem setSent_env (x : List (List Byte)) : (s.setSent x).env = s.env := rfl

@[simp] theorem setEnv_ses (x : Env) : (s.setEnv x).ses = s.ses := rfl
@[simp] theorem setEnv_cfg (x : Env) : (s.setEnv x).cfg = s.cfg := rfl
@[simp] theorem setEnv_par (x : Env) : (s.setEnv x).par = s.par := rfl
@[simp] theorem setEnv_lockedCeiling (x : Env) : (s.setEnv x).lockedCeiling = s.lockedCeiling := rfl
@[simp] theorem setEnv_file (x : Env) : (s.setEnv x).file = s.file := rfl
@[simp] theorem setEnv_blk (x : Env) : (s.setEnv x).blk = s.blk := rfl
@[simp] theorem setEnv_trail (x : Env) : (s.setEnv x).trail = s.trail := rfl
@[simp] theorem setEnv_hist (x : Env) : (s.setEnv x).hist = s.hist := rfl
@[simp] theorem setEnv_waits (x : Env) : (s.setEnv x).waits = s.waits := rfl
@[simp] theorem setEnv_answer (x : Env) : (s.setEnv x).answer = s.answer := rfl
@[simp] theorem setEnv_pending (x : Env) : (s.setEnv x).pending = s.pending := rfl
@[simp] theorem setEnv_sent (x : Env) : (s.setEnv x).sent = s.sent := rfl
@[simp] theorem setEnv_env (x : Env) : (s.setEnv x).env = x := rfl

@[simp] theorem setPhase_ses (x : Phase) : (s.setPhase x).ses = { s.ses with phase := x } := rfl
@[simp] theorem setPhase_cfg (x : Phase) : (s.setPhase x).cfg = s.cfg := rfl
@[simp] theorem setPhase_par (x : Phase) : (s.setPhase x).par = s.par := rfl
@[simp] theorem setPhase_lockedCeiling (x : Phase) : (s.setPhase x).lockedCeiling = s.lockedCeiling := rfl
@[simp] theorem setPhase_file (x : Phase) : (s.setPhase x).file = s.file := rfl
@[simp] theorem setPhase_blk (x : Phase) : (s.setPhase x).blk = s.blk := rfl
@[simp] theorem setPhase_trail (x : Phase) : (s.setPhase x).trail = s.trail := rfl
@[simp] theorem setPhase_hist (x : Phase) : (s.setPhase x).hist = s.hist := rfl
@[simp] theorem setPhase_waits (x : Phase) : (s.setPhase x).waits = s.waits := rfl
@[simp] theorem setPhase_answer (x : Phase) : (s.setPhase x).answer = s.answer := rfl
@[simp] theorem setPhase_pending (x : Phase) : (s.setPhase x).pending = s.pending := rfl
@[simp] theorem setPhase_sent (x : Phase) : (s.setPhase x).sent = s.sent := rfl
@[simp] theorem setPhase_env (x : Phase) : (s.setPhase x).env = s.env := rfl

@[simp] theorem emit_ses (x : List Event) : (s.emit x).ses = s.ses := rfl
@[simp] theorem emit_cfg (x : List Event) : (s.emit x).cfg = s.cfg := rfl
@[simp] theorem emit_par (x : List Event) : (s.emit x).par = s.par := rfl
@[simp] theorem emit_lockedCeiling (x : List Event) : (s.emit x).lockedCeiling = s.lockedCeiling := rfl
@[simp] theorem emit_file (x : List Event) : (s.emit x).file = s.file := rfl
@[simp] theorem emit_blk (x : List Event) : (s.emit x).blk = s.blk := rfl
@[simp] theorem emit_trail (x : List Event) : (s.emit x).trail = s.trail := rfl
@[simp] theorem emit_hist (x : List Event) : (s.emit x).hist = s.hist ++ x := rfl
@[simp] theorem emit_waits (x : List Event) : (s.emit x).waits = s.waits := rfl
@[simp] theorem emit_answer (x : List Event) : (s.emit x).answer = s.answer := rfl
@[simp] theorem emit_pending (x : List Event) : (s.emit x).pending = s.pending := rfl
@[simp] theorem emit_sent (x : List Event) : (s.emit x).sent = s.sent := rfl
@[simp] theorem emit_env (x : List Event) : (s.emit x).env = s.env := rfl

@[simp] theorem askWait_ses (k : WaitKind) (d : Rat) : (s.askWait k d).ses = s.ses := rfl
@[simp] theorem askWait_cfg (k : WaitKind) (d : Rat) : (s.askWait k d).cfg = s.cfg := rfl
@[simp] theorem askWait_par (k : WaitKind) (d : Rat) : (s.askWait k d).par = s.par := rfl
@[simp] theorem askWait_lockedCeiling (k : WaitKind) (d : Rat) : (s.askWait k d).lockedCeiling = s.lockedCeiling := rfl
@[simp] theorem askWait_file (k : WaitKind) (d : Rat) : (s.askWait k d).file = s.file := rfl
@[simp] theorem askWait_blk (k : WaitKind) (d : Rat) : (s.askWait k d).blk = s.blk := rfl
@[simp] theorem askWait_trail (k : WaitKind) (d : Rat) : (s.askWait k d).trail = s.trail := rfl
@[simp] theorem askWait_hist (k : WaitKind) (d : Rat) : (s.askWait k d).hist = s.hist := rfl
@[simp] theorem askWait_waits (k : WaitKind) (d : Rat) : (s.askWait k d).waits = s.waits ++ [⟨k, d⟩] := rfl
@[simp] theorem askWait_answer (k : WaitKind) (d : Rat) : (s.askWait k d).answer = s.answer := rfl
@[simp] theorem askWait_pending (k : WaitKind) (d : Rat) : (s.askWait k d).pending = s.pending := rfl
@[simp] theorem askWait_sent (k : WaitKind) (d : Rat) : (s.askWait k d).sent = s.sent := rfl
@[simp] theorem askWait_env (k : WaitKind) (d : Rat) : (s.askWait k d).env = s.env := rfl

@[simp] theorem respond_ses (x : Answer) : (s.respond x).ses = s.ses := rfl
@[simp] theorem respond_cfg (x : Answer) : (s.respond x).cfg = s.cfg := rfl
@[simp] theorem respond_par (x : Answer) : (s.respond x).par = s.par := rfl
@[simp] theorem respond_lockedCeiling (x : Answer) : (s.respond x).lockedCeiling = s.lockedCeiling := rfl
@[simp] theorem respond_file (x : Answer) : (s.respond x).file = s.file := rfl
@[simp] theorem respond_blk (x : Answer) : (s.respond x).blk = s.blk := rfl
@[simp] theorem respond_trail (x : Answer) : (s.respond x).trail = s.trail := rfl
@[simp] theorem respond_hist (x : Answer) : (s.respond x).hist = s.hist := rfl
@[simp] theorem respond_waits (x : Answer) : (s.respond x).waits = s.waits := rfl
@[simp] theorem respond_answer (x : Answer) : (s.respond x).answer = x := rfl
@[simp] theorem respond_pending (x : Answer) : (s.respond x).pending = s.pending := rfl
@[simp] theorem respond_sent (x : Answer) : (s.respond x).sent = s.sent := rfl
@[simp] theorem respond_env (x : Answer) : (s.respond x).env = s.env := rfl

@[simp] theorem sleepFor_ses (k : SleepKind) (d : Rat) : (s.sleepFor k d).ses = s.ses := rfl
@[simp] theorem sleepFor_cfg (k : SleepKind) (d : Rat) : (s.sleepFor k d).cfg = s.cfg := rfl
@[simp] theorem sleepFor_par (k : SleepKind) (d : Rat) : (s.sleepFor k d).par = s.par := rfl
@[simp] theorem sleepFor_lockedCeiling (k : SleepKind) (d : Rat) : (s.sleepFor k d).lockedCeiling = s.lockedCeiling :=
  rfl
@[simp] theorem sleepFor_file (k : SleepKind) (d : Rat) : (s.sleepFor k d).file = s.file := rfl
@[simp] theorem sleepFor_blk (k : SleepKind) (d : Rat) : (s.sleepFor k d).blk = s.blk := rfl
@[simp] theorem sleepFor_trail (k : SleepKind) (d : Rat) : (s.sleepFor k d).trail = s.trail := rfl
@[simp] theorem sleepFor_hist (k : SleepKind) (d : Rat) : (s.sleepFor k d).hist = s.hist ++ [.sleep k] := rfl
@[simp] theorem sleepFor_waits (k : SleepKind) (d : Rat) : (s.sleepFor k d).waits = s.waits ++ [⟨.sleep k, d⟩] := rfl
@[simp] theorem sleepFor_answer (k : SleepKind) (d : Rat) : (s.sleepFor k d).answer = s.answer := rfl
@[simp] theorem sleepFor_pending (k : SleepKind) (d : Rat) : (s.sleepFor k d).pending = s.pending := rfl
@[simp] theorem sleepFor_sent (k : SleepKind) (d : Rat) : (s.sleepFor k d).sent = s.sent := rfl
@[simp] theorem sleepFor_env (k : SleepKind) (d : Rat) : (s.sleepFor k d).env = s.env := rfl

@[simp] theorem arrive_ses (x : List Byte) : (s.arrive x).ses = s.ses := rfl
@[simp] theorem arrive_cfg (x : List Byte) : (s.arrive x).cfg = s.cfg := rfl
@[simp] theorem arrive_par (x : List Byte) : (s.arrive x).par = s.par := rfl
@[simp] theorem arrive_lockedCeiling (x : List Byte) : (s.arrive x).lockedCeiling = s.lockedCeiling := rfl
@[simp] theorem arrive_file (x : List Byte) : (s.arrive x).file = s.file := rfl
@[simp] theorem arrive_blk (x : List Byte) : (s.arrive x).blk = s.blk := rfl
@[simp] theorem arrive_trail (x : List Byte) : (s.arrive x).trail = s.trail := rfl
@[simp] theorem arrive_hist (x : List Byte) : (s.arrive x).hist = s.hist := rfl
@[simp] theorem arrive_waits (x : List Byte) : (s.arrive x).waits = s.waits := rfl
@[simp] theorem arrive_answer (x : List Byte) : (s.arrive x).answer = s.answer := rfl
@[simp] theorem arrive_pending (x : List Byte) : (s.arrive x).pending = s.pending ++ x := rfl
@[simp] theorem arrive_sent (x : List Byte) : (s.arrive x).sent = s.sent := rfl
@[simp] theorem arrive_env (x : List Byte) : (s.arrive x).env = s.env := rfl

@[simp] theorem freshTrail_ses : (s.freshTrail).ses = s.ses := rfl
@[simp] theorem freshTrail_cfg : (s.freshTrail).cfg = s.cfg := rfl
@[simp] theorem freshTrail_par : (s.freshTrail).par = s.par := rfl
@[simp] theorem freshTrail_lockedCeiling : (s.freshTrail).lockedCeiling = s.lockedCeiling := rfl
@[simp] theorem freshTrail_file : (s.freshTrail).file = s.file := rfl
@[simp] theorem freshTrail_blk : (s.freshTrail).blk = s.blk := rfl
@[simp] theorem freshTrail_trail : (s.freshTrail).trail = s.trail := rfl
@[simp] theorem freshTrail_hist : (s.freshTrail).hist = s.hist := rfl
@[simp] theorem freshTrail_waits : (s.freshTrail).waits = s.waits := rfl
@[simp] theorem freshTrail_answer : (s.freshTrail).answer = s.answer := rfl
@[simp] theorem freshTrail_pending : (s.freshTrail).pending = s.pending := rfl
@[simp] theorem freshTrail_sent : (s.freshTrail).sent = s.sent := rfl
@[simp] theorem freshTrail_env : (s.freshTrail).env = { s.env with trailEpoch := s.env.trailEpoch + 1 } := rfl

@[simp] theorem addElapsed_ses (d : Nat) : (s.addElapsed d).ses = { s.ses with elapsed := s.elapsedPlus d } := rfl
@[simp] theorem addElapsed_cfg (d : Nat) : (s.addElapsed d).cfg = s.cfg := rfl
@[simp] theorem addElapsed_par (d : Nat) : (s.addElapsed d).par = s.par := rfl
@[simp] theorem addElapsed_lockedCeiling (d : Nat) : (s.addElapsed d).lockedCeiling = s.lockedCeiling := rfl
@[simp] theorem addElapsed_file (d : Nat) : (s.addElapsed d).file = s.file := rfl
@[simp] theorem addElapsed_blk (d : Nat) : (s.addElapsed d).blk = s.blk := rfl
@[simp] theorem addElapsed_trail (d : Nat) : (s.addElapsed d).trail = s.trail := rfl
@[simp] theorem addElapsed_hist (d : Nat) : (s.addElapsed d).hist = s.hist := rfl
@[simp] theorem addElapsed_waits (d : Nat) : (s.addElapsed d).waits = s.waits := rfl
@[simp] theorem addElapsed_answer (d : Nat) : (s.addElapsed d).answer = s.answer := rfl
@[simp] theorem addElapsed_pending (d : Nat) : (s.addElapsed d).pending = s.pending := rfl
@[simp] theorem addElapsed_sent (d : Nat) : (s.addElapsed d).sent = s.sent := rfl
@[simp] theorem addElapsed_env (d : Nat) : (s.addElapsed d).env = s.env := rfl

end Sys2Proof.Machine.State
end

