-- ==== Sys2Proof/Laws/Memory.lean ====
section
/-! SUPPORT. The laws of the memory operations: read after write, everything else unchanged, the canonical form kept. -/

namespace Sys2Proof.Machine.Memory

/-- A read of the written address gives the written byte; of any other address, what it gave before. -/
theorem read_write (a c : Nat) (b : Byte) (m : Memory) :
    read (write a b m) c = if c = a then some b else read m c := by
  induction m with
  | nil => simp [write, read, eq_comm]
  | cons x m ih =>
    obtain ⟨d, v⟩ := x
    simp only [write]
    split
    · simp [read, eq_comm]
    · split
      · rename_i h; subst h
        by_cases hc : c = a
        · simp [read, hc]
        · simp [read, hc, Ne.symm hc]
      · rename_i h1 h2
        simp only [read, ih]
        by_cases hd : d = c
        · subst hd; simp [Ne.symm h2]
        · simp [hd]

/-- `writeBytes` writes its bytes from `a` upward and leaves every other address alone. -/
theorem read_writeBytes (bs : List Byte) (a c : Nat) (m : Memory) :
    read (writeBytes a bs m) c = if a ≤ c then (bs[c - a]?).or (read m c) else read m c := by
  induction bs generalizing a with
  | nil => simp [writeBytes]
  | cons b bs ih =>
    rw [writeBytes, read_write, ih]
    by_cases h : c = a
    · subst h; simp
    · by_cases h1 : a ≤ c
      · have h2 : a + 1 ≤ c := by omega
        have h3 : c - a = (c - (a + 1)) + 1 := by omega
        simp [h, h1, h2, h3]
      · have h2 : ¬ a + 1 ≤ c := by omega
        simp [h, h1, h2]

/-- The head of a written memory is the smaller of the old head and the written address. -/
theorem write_head (a : Nat) (b : Byte) (m : Memory) (lo : Nat) (ha : lo < a)
    (hm : ∀ c ∈ m.head?, lo < c.1) : ∀ c ∈ (write a b m).head?, lo < c.1 := by
  cases m with
  | nil => simpa [write] using ha
  | cons x m =>
    simp only [write]
    split
    · simpa using ha
    · split
      · simpa using ha
      · simpa using hm

/-- The canonical form, unfolded once: the tail is canonical and its head lies above. -/
theorem wf_cons (x : Host.Cell) (m : Memory) : wf (x :: m) = true ↔ (∀ c ∈ m.head?, x.1 < c.1) ∧ wf m = true := by
  cases m with
  | nil => simp [wf]
  | cons d m => simp [wf]

/-- A write keeps the canonical form. -/
theorem wf_write (a : Nat) (b : Byte) (m : Memory) (h : wf m = true) : wf (write a b m) = true := by
  induction m with
  | nil => rfl
  | cons x m ih =>
    obtain ⟨d, v⟩ := x
    have hx := (wf_cons _ _).1 h
    simp only [write]
    split
    · rename_i h1
      exact (wf_cons _ _).2 ⟨by simpa using h1, h⟩
    · split
      · rename_i h1; subst h1
        exact (wf_cons _ _).2 ⟨hx.1, hx.2⟩
      · rename_i h1 h2
        exact (wf_cons _ _).2 ⟨write_head a b m d (by omega) hx.1, ih hx.2⟩

/-- So do the writes of a byte sequence. -/
theorem wf_writeBytes (bs : List Byte) (a : Nat) (m : Memory) (h : wf m = true) : wf (writeBytes a bs m) = true := by
  induction bs generalizing a with
  | nil => exact h
  | cons b bs ih => exact wf_write _ _ _ (ih (a + 1))

/-- Being inside a space, unfolded once. -/
theorem within_cons (cap : Nat) (x : Host.Cell) (m : Memory) :
    within cap (x :: m) = true ↔ x.1 < cap ∧ within cap m = true := by
  simp only [within, List.all_cons, Bool.and_eq_true, decide_eq_true_eq]

/-- A write inside a space keeps the memory inside it. -/
theorem within_write (cap a : Nat) (b : Byte) (m : Memory) (ha : a < cap) (h : within cap m = true) :
    within cap (write a b m) = true := by
  induction m with
  | nil => exact (within_cons _ _ _).2 ⟨ha, rfl⟩
  | cons x m ih =>
    obtain ⟨d, v⟩ := x
    have hx := (within_cons _ _ _).1 h
    simp only [write]
    split
    · exact (within_cons _ _ _).2 ⟨ha, h⟩
    · split
      · exact (within_cons _ _ _).2 ⟨ha, hx.2⟩
      · exact (within_cons _ _ _).2 ⟨hx.1, ih hx.2⟩

/-- So do the writes of a byte sequence that ends inside it. -/
theorem within_writeBytes (cap : Nat) (bs : List Byte) (a : Nat) (m : Memory) (ha : a + bs.length ≤ cap)
    (h : within cap m = true) : within cap (writeBytes a bs m) = true := by
  induction bs generalizing a with
  | nil => exact h
  | cons b bs ih =>
    have hl : a + (bs.length + 1) ≤ cap := by simpa using ha
    exact within_write cap a b _ (by omega) (ih (a + 1) (by omega))

end Sys2Proof.Machine.Memory
end

