-- ==== Sys2Proof/Laws/Ops.lean ====
section
/-! SUPPORT. One lemma per shared operation: everything it can do. The operations that draw an input change the state
outside the registers only in `env`, and there neither the turns to come nor the epochs of the unspecified bytes. -/

namespace Sys2Proof.Machine

/-- What drawing inputs leaves alone in `Env`. -/
structure Env.Draws (a b : Env) : Prop where
  agenda : b.agenda = a.agenda
  resetPin : b.resetPin = a.resetPin
  fileEpoch : b.fileEpoch = a.fileEpoch
  trailEpoch : b.trailEpoch = a.trailEpoch

theorem Env.Draws.refl (a : Env) : a.Draws a := ⟨rfl, rfl, rfl, rfl⟩

theorem Env.Draws.trans {a b c : Env} (h : a.Draws b) (g : b.Draws c) : a.Draws c :=
  ⟨g.1.trans h.1, g.2.trans h.2, g.3.trans h.3, g.4.trans h.4⟩

theorem drawClear_env (s : State) : ∃ e, (drawClear s).2 = s.setEnv e ∧ s.env.Draws e ∧ e.writes = s.env.writes ∧
    e.reads = s.env.reads ∧ e.tails = s.env.tails := by
  unfold drawClear
  split <;> exact ⟨_, rfl, ⟨rfl, rfl, rfl, rfl⟩, rfl, rfl, rfl⟩

theorem drawWrite_env (s : State) : ∃ e, (drawWrite s).2 = s.setEnv e ∧ s.env.Draws e ∧ e.clears = s.env.clears ∧
    e.reads = s.env.reads ∧ e.tails = s.env.tails := by
  unfold drawWrite
  split <;> exact ⟨_, rfl, ⟨rfl, rfl, rfl, rfl⟩, rfl, rfl, rfl⟩

theorem drawRandom_env (s : State) : ∃ e, (drawRandom s).2 = s.setEnv e ∧ s.env.Draws e ∧ e.clears = s.env.clears ∧
    e.writes = s.env.writes ∧ e.reads = s.env.reads ∧ e.tails = s.env.tails := by
  unfold drawRandom
  split <;> exact ⟨_, rfl, ⟨rfl, rfl, rfl, rfl⟩, rfl, rfl, rfl, rfl⟩

theorem drawElapse_env (s : State) : ∃ e, (drawElapse s).2 = s.setEnv e ∧ s.env.Draws e ∧ e.clears = s.env.clears ∧
    e.writes = s.env.writes ∧ e.reads = s.env.reads ∧ e.tails = s.env.tails := by
  unfold drawElapse
  split <;> exact ⟨_, rfl, ⟨rfl, rfl, rfl, rfl⟩, rfl, rfl, rfl, rfl⟩

theorem drawArrivals_env (k : ReadUse) (s : State) : ∃ e, (drawArrivals k s).2 = s.setEnv e ∧ s.env.Draws e ∧
    e.clears = s.env.clears ∧ e.writes = s.env.writes := by
  unfold drawArrivals drawRead drawTail
  split <;> split <;> exact ⟨_, rfl, ⟨rfl, rfl, rfl, rfl⟩, rfl, rfl⟩

/-- An addition never lowers `ELAPSED` (R28). -/
theorem le_elapsedPlus (d : Nat) (s : State) : s.ses.elapsed ≤ s.elapsedPlus d := Nat.le_max_left _ _

/-- An addition keeps `ELAPSED` within its width, and is the sum cut there (R28, log entry 4). -/
theorem elapsedPlus_eq (d : Nat) (s : State) (h : s.ses.elapsed < 2 ^ s.par.elapsedBits) :
    s.elapsedPlus d = min (s.ses.elapsed + d) (2 ^ s.par.elapsedBits - 1) := by
  unfold State.elapsedPlus
  generalize 2 ^ s.par.elapsedBits = m at *
  omega

/-- Time passing over a step: `ELAPSED` grows or stays, inputs are drawn, nothing else changes. -/
theorem elapse_cases (s : State) : ∃ x e, elapse s = (s.setEnv e).setSes { s.ses with elapsed := x } ∧
    s.ses.elapsed ≤ x ∧ (s.ses.elapsed < 2 ^ s.par.elapsedBits → x < 2 ^ s.par.elapsedBits) ∧
    s.env.Draws e ∧ e.clears = s.env.clears ∧ e.writes = s.env.writes ∧
    e.reads = s.env.reads ∧ e.tails = s.env.tails := by
  obtain ⟨e, he, hd⟩ := drawElapse_env s
  refine ⟨(s.setEnv e).elapsedPlus (drawElapse s).1, e, ?_, le_elapsedPlus _ _, fun h => ?_, hd⟩
  · simp only [elapse, he]; rfl
  · rw [elapsedPlus_eq _ (s.setEnv e) h]
    simp only [State.setEnv_ses, State.setEnv_par] at h ⊢
    generalize 2 ^ s.par.elapsedBits = m at *
    omega

/-- `RX_CLEAR`: the pending input emptied, or a fault. -/
theorem rxClear_cases (s : State) : ∃ e, s.env.Draws e ∧ e.writes = s.env.writes ∧ e.reads = s.env.reads ∧
    e.tails = s.env.tails ∧
    (rxClear s = (true, (s.setEnv e).setPending []) ∨ rxClear s = (false, s.setEnv e)) := by
  obtain ⟨e, he, hd, hw, hr, ht⟩ := drawClear_env s
  refine ⟨e, hd, hw, hr, ht, ?_⟩
  unfold rxClear
  rw [he]
  split
  · exact .inl rfl
  · exact .inr rfl

/-- `TX_WRITE`: the bytes sent whole, or a fault. -/
theorem txWrite_cases (f : List Byte) (s : State) : ∃ e, s.env.Draws e ∧ e.clears = s.env.clears ∧
    e.reads = s.env.reads ∧ e.tails = s.env.tails ∧
    (txWrite f s = (true, (s.setEnv e).setSent (s.sent ++ [f])) ∨ txWrite f s = (false, s.setEnv e)) := by
  obtain ⟨e, he, hd, hc, hr, ht⟩ := drawWrite_env s
  refine ⟨e, hd, hc, hr, ht, ?_⟩
  unfold txWrite
  rw [he]
  split
  · exact .inl rfl
  · exact .inr rfl

/-- `RX_READ`: the first `n` bytes of what is pending by its end, or a fault. -/
theorem rxRead_cases (k : ReadUse) (n : Nat) (t : Rat) (s : State) : ∃ e, s.env.Draws e ∧ e.clears = s.env.clears ∧
    e.writes = s.env.writes ∧
    (rxRead k n t s = (none, (s.askWait .read t).setEnv e) ∨
     ∃ bs, rxRead k n t s = (some ((s.pending ++ bs).take n),
       ((s.askWait .read t).setEnv e).setPending ((s.pending ++ bs).drop n))) := by
  obtain ⟨e, he, hd, hc, hw⟩ := drawArrivals_env k (s.askWait .read t)
  refine ⟨e, hd, hc, hw, ?_⟩
  unfold rxRead
  split
  · rename_i s' h
    rw [h] at he
    exact .inl (by rw [← he])
  · rename_i bs s' h
    rw [h] at he
    obtain rfl : s' = _ := he
    exact .inr ⟨bs, rfl⟩

/-- An attempt (R155, R178): the frame written after a clear, or a transport fault of one of the two operations. -/
theorem sendAttempt_cases (p : Block) (s : State) : ∃ e, s.env.Draws e ∧ e.reads = s.env.reads ∧ e.tails = s.env.tails ∧
    (sendAttempt p s = takeFault .rxClear (s.setEnv e) ∨
     sendAttempt p s = takeFault .txWrite (((s.setEnv e).setPending []).emit [.clear]) ∨
     sendAttempt p s = (((((s.setEnv e).setPending []).emit [.clear]).setSent
       (s.sent ++ [buildFrame (widx s.ses.cursor) p])).emit
         [.write (buildFrame (widx s.ses.cursor) p)]).setPhase .wait) := by
  obtain ⟨e, hd, -, hr, ht, h | h⟩ := rxClear_cases s
  · obtain ⟨e', hd', -, hr', ht', g⟩ := txWrite_cases (buildFrame (widx s.ses.cursor) p)
      (((s.setEnv e).setPending []).emit [.clear])
    refine ⟨e', hd.trans hd', hr'.trans hr, ht'.trans ht, ?_⟩
    obtain g | g := g
    · exact .inr (.inr (by simp only [sendAttempt, h, g]; rfl))
    · exact .inr (.inl (by simp only [sendAttempt, h, g]; rfl))
  · exact ⟨e, hd, hr, ht, .inl (by simp only [sendAttempt, h])⟩

/-- The trailing read (R175, R178): the tail stored, or a transport fault. -/
theorem drainTail_cases (s : State) : ∃ e, s.env.Draws e ∧
    (drainTail s = takeFault .rxRead (((s.sleepFor .final s.cfg.finalWait).askWait .read 0).setEnv e) ∨
     ∃ bs, drainTail s = storeTail ((s.pending ++ bs).take s.par.trailCap)
       ((((s.sleepFor .final s.cfg.finalWait).askWait .read 0).setEnv e).setPending
         ((s.pending ++ bs).drop s.par.trailCap))) := by
  obtain ⟨e, hd, -, -, h⟩ := rxRead_cases .trailing s.par.trailCap 0 (s.sleepFor .final s.cfg.finalWait)
  refine ⟨e, hd, ?_⟩
  obtain h | ⟨bs, h⟩ := h
  · exact .inl (by simp only [drainTail, h])
  · exact .inr ⟨bs, by simp only [drainTail, h]; rfl⟩

/-- A negative signal (R162): the abort when the incremented counter exceeds the ceiling, else the backoff. -/
theorem negative_cases (s : State) :
    (s.cfg.retryCeiling < s.ses.rpt + 1 ∧ negative s = s.setSes
      { s.ses with rpt := s.ses.rpt + 1, outcome := .aborted, cause := .retryExhausted, phase := .drain }) ∨
    (s.ses.rpt + 1 ≤ s.cfg.retryCeiling ∧
      negative s = s.setSes { s.ses with rpt := s.ses.rpt + 1, phase := .backoff }) := by
  unfold negative
  split
  · exact .inl ⟨by assumption, rfl⟩
  · exact .inr ⟨by omega, rfl⟩

/-- A response (R158 to R161): its event, and the advance or the negative signal its class selects. -/
theorem takeResponse_cases (r : Response) (s : State) : ∃ u, u = (elapse s).emit [.read r] ∧
    ((r = .ack ∧ takeResponse r s = advance u) ∨ (r ≠ .ack ∧ takeResponse r s = negative u)) := by
  refine ⟨_, rfl, ?_⟩
  cases r <;> simp [takeResponse, classEffect]

/-- The end of the pacing wait (R172). -/
theorem paceEffect_cases (s : State) :
    (s.ses.cursor = s.ses.nblk ∧ paceEffect s = s.setSes { s.ses with outcome := .completed, phase := .drain }) ∨
    (s.ses.cursor ≠ s.ses.nblk ∧ paceEffect s = s.setPhase .send) := by
  unfold paceEffect
  split
  · exact .inl ⟨by assumption, rfl⟩
  · exact .inr ⟨by assumption, rfl⟩

@[simp] theorem takeFault_ses (op : TransportOp) (s : State) :
    (takeFault op s).ses = { s.ses with outcome := .fault, cause := .transportFault, phase := .done } := rfl
@[simp] theorem takeFault_hist (op : TransportOp) (s : State) : (takeFault op s).hist = s.hist ++ [.fault op] := rfl
@[simp] theorem takeFault_par (op : TransportOp) (s : State) : (takeFault op s).par = s.par := rfl
@[simp] theorem takeFault_lockedCeiling (op : TransportOp) (s : State) :
    (takeFault op s).lockedCeiling = s.lockedCeiling := rfl
@[simp] theorem takeFault_cfg (op : TransportOp) (s : State) : (takeFault op s).cfg = s.cfg := rfl
@[simp] theorem takeFault_file (op : TransportOp) (s : State) : (takeFault op s).file = s.file := rfl
@[simp] theorem takeFault_blk (op : TransportOp) (s : State) : (takeFault op s).blk = s.blk := rfl
@[simp] theorem takeFault_trail (op : TransportOp) (s : State) : (takeFault op s).trail = s.trail := rfl
@[simp] theorem takeFault_waits (op : TransportOp) (s : State) : (takeFault op s).waits = s.waits := rfl
@[simp] theorem takeFault_answer (op : TransportOp) (s : State) : (takeFault op s).answer = s.answer := rfl
@[simp] theorem takeFault_pending (op : TransportOp) (s : State) : (takeFault op s).pending = s.pending := rfl
@[simp] theorem takeFault_sent (op : TransportOp) (s : State) : (takeFault op s).sent = s.sent := rfl
@[simp] theorem takeFault_env (op : TransportOp) (s : State) : (takeFault op s).env = s.env := rfl

/-- The trailing bytes as stored (R175): `TRAIL[k]` is byte `k` of what was read. -/
theorem storeTail_trailByte (t : List Byte) (s : State) (ht : t.length < 2 ^ 16) (k : Nat) (b : Byte)
    (h : t[k]? = some b) : (storeTail t s).trailByte k = b := by
  have hk : k < t.length := (List.getElem?_eq_some_iff.1 h).1
  have hl : (storeTail t s).ses.trailLen.toNat = t.length := by
    show (BitVec.ofNat 16 t.length).toNat = _
    simp only [BitVec.toNat_ofNat]
    omega
  unfold State.trailByte
  rw [if_pos (by omega)]
  show (Memory.read (Memory.writeBytes 0 t s.trail) k).getD _ = _
  simp [Memory.read_writeBytes, h]

/-- The result of R206 after a trailing read is what was read. -/
theorem storeTail_trailBytes (t : List Byte) (s : State) (ht : t.length < 2 ^ 16) : (storeTail t s).trailBytes = t := by
  have hl : (storeTail t s).ses.trailLen.toNat = t.length := by
    show (BitVec.ofNat 16 t.length).toNat = _
    simp only [BitVec.toNat_ofNat]
    omega
  unfold State.trailBytes
  rw [hl]
  apply List.ext_getElem
  · simp
  · intro k h1 h2
    simp only [List.getElem_map, List.getElem_range]
    exact storeTail_trailByte t s ht k _ (List.getElem?_eq_getElem h2)

end Sys2Proof.Machine
end

