-- ==== Sys2Proof/Laws/Exec.lean ====
section
/-! SUPPORT. Everything an operation and a step can do, said once: an operation leaves the block alone, starts a
session, resets it, or is one engine step; a step runs one operation in a state in which, beside the inputs, only the
pending input and the waits asked for may have changed. -/

namespace Sys2Proof.Machine

/-- What an operation that is neither an engine step, a start nor a reset does: nothing to the session, its history or
its memories, nothing to the configuration or `FILE` while `BUSY`, and on the line at most one write. -/
structure Quiet (i : Instr) (s t : State) : Prop where
  par : t.par = s.par
  lockedCeiling : t.lockedCeiling = s.lockedCeiling
  ses : t.ses = s.ses
  blk : t.blk = s.blk
  trail : t.trail = s.trail
  hist : t.hist = s.hist
  draws : s.env.Draws t.env
  elapses : t.env.elapses = s.env.elapses
  locked : s.busy = true → t.cfg = s.cfg ∧ t.file = s.file
  sent : t.sent = s.sent ∨ ∃ idx p, (i = .txWrite (buildFrame idx p) ∨ i = .frame idx p) ∧
    t.sent = s.sent ++ [buildFrame idx p]

/-- The engine steps, each from its phase (R152 to R178), with the items of the line that select one in `WAIT`. -/
inductive EngineMove (s : State) : Instr → State → Prop where
  | send (p : Block) : s.ses.phase = .send → s.block? s.ses.cursor = some p →
      EngineMove s .eSend (sendAttempt p (elapse s))
  | respAck : s.ses.phase = .wait → EngineMove s .eRespAck (takeResponse .ack s)
  | respNak : s.ses.phase = .wait → EngineMove s .eRespNak (takeResponse .nak s)
  | respOther (b : Byte) : s.ses.phase = .wait → EngineMove s (.eRespOther b) (takeResponse (.other b) s)
  | respTimeout : s.ses.phase = .wait → EngineMove s .eRespTimeout (takeResponse .timeout s)
  | ack : s.ses.phase = .wait → EngineMove s .ack (takeResponse .ack s)
  | nak : s.ses.phase = .wait → EngineMove s .nak (takeResponse .nak s)
  | other (b : Byte) : s.ses.phase = .wait → EngineMove s (.other b) (takeResponse (.other b) s)
  | timeout : s.ses.phase = .wait → EngineMove s .timeout (takeResponse .timeout s)
  | backoff (u : Rand) : s.ses.phase = .backoff →
      EngineMove s (.eBackoff u) (((elapse s).sleepFor .backoff (backoffDelay u.val s)).setPhase .send)
  | pace : s.ses.phase = .pace → EngineMove s .ePace (paceEffect ((elapse s).sleepFor .pace s.cfg.paceDelay))
  | drain : s.ses.phase = .drain → EngineMove s .eDrain (drainTail (elapse s))
  | fault (op : TransportOp) (u : State) : beforeFault op (elapse s) = some u →
      EngineMove s (.eFault op) (takeFault op u)

theorem txWrite_quiet (i : Instr) (idx : Byte) (p : Block) (s : State)
    (h : i = .txWrite (buildFrame idx p) ∨ i = .frame idx p) : Quiet i s (runTxWrite (buildFrame idx p) s) := by
  have hel : (drawWrite s).2.env.elapses = s.env.elapses := by unfold drawWrite; split <;> rfl
  have hel' : (txWrite (buildFrame idx p) s).2.env.elapses = s.env.elapses := by unfold txWrite; split <;> exact hel
  obtain ⟨e, hd, -, -, -, g | g⟩ := txWrite_cases (buildFrame idx p) s <;>
    (rw [g] at hel'
     simp only [runTxWrite, g]
     refine ⟨rfl, rfl, rfl, rfl, rfl, rfl, hd, hel', fun _ => ⟨rfl, rfl⟩, ?_⟩)
  · exact .inr ⟨idx, p, h, rfl⟩
  · exact .inl rfl

theorem quiet_refl (i : Instr) (s : State) : Quiet i s s :=
  ⟨rfl, rfl, rfl, rfl, rfl, rfl, .refl _, rfl, fun _ => ⟨rfl, rfl⟩, .inl rfl⟩

theorem respond_quiet (i : Instr) (a : Answer) (s : State) : Quiet i s (s.respond a) :=
  ⟨rfl, rfl, rfl, rfl, rfl, rfl, .refl _, rfl, fun _ => ⟨rfl, rfl⟩, .inl rfl⟩

theorem arrive_quiet (i : Instr) (bs : List Byte) (s : State) : Quiet i s (s.arrive bs) :=
  ⟨rfl, rfl, rfl, rfl, rfl, rfl, .refl _, rfl, fun _ => ⟨rfl, rfl⟩, .inl rfl⟩

/-- Everything an operation that answers a next state can do. -/
theorem exec_cases {i : Instr} {s t : State} (h : exec i s = .next t) :
    Quiet i s t ∨ ((i = .eStart ∨ i = .hStart) ∧ s.busy = false ∧ t = startSession s) ∨
    (i = .hReset ∧ t = resetBlock s) ∨ EngineMove s i t := by
  cases i <;> simp only [exec] at h
  case frame idx p =>
    cases h
    rw [frameLayout_eq_buildFrame]
    exact .inl (txWrite_quiet _ _ _ _ (.inr rfl))
  case ack =>
    simp only [execAck] at h
    split at h <;> cases h
    · exact .inr (.inr (.inr (.ack (by assumption))))
    · exact .inl (arrive_quiet _ _ _)
  case nak =>
    simp only [execNak] at h
    split at h <;> cases h
    · exact .inr (.inr (.inr (.nak (by assumption))))
    · exact .inl (arrive_quiet _ _ _)
  case other b =>
    simp only [execOther] at h
    split at h
    · split at h <;> cases h
      · exact .inr (.inr (.inr (.other b (by assumption))))
      · exact .inl (arrive_quiet _ _ _)
    · cases h
  case timeout =>
    simp only [execTimeout] at h
    split at h <;> cases h
    · exact .inr (.inr (.inr (.timeout (by assumption))))
    · exact .inl (quiet_refl _ _)
  case pad => simp only [execPad] at h; split at h <;> cases h; exact .inl (respond_quiet _ _ _)
  case nblkOf => simp only [execNblkOf] at h; split at h <;> cases h; exact .inl (respond_quiet _ _ _)
  case chunk =>
    simp only [execChunk] at h
    split at h
    · split at h <;> cases h
      exact .inl (respond_quiet _ _ _)
    · cases h
  case widx => simp only [execWidx] at h; split at h <;> cases h; exact .inl (respond_quiet _ _ _)
  case checksum => cases h; exact .inl (respond_quiet _ _ _)
  case buildFrame => cases h; exact .inl (respond_quiet _ _ _)
  case buildFrameRaw => simp only [execBuildFrameRaw] at h; split at h <;> cases h; exact .inl (respond_quiet _ _ _)
  case frameOf => simp only [execFrameOf] at h; split at h <;> cases h; exact .inl (respond_quiet _ _ _)
  case eStart =>
    simp only [execEStart] at h
    split at h <;> cases h
    exact .inr (.inl ⟨.inl rfl, by simp_all, rfl⟩)
  case eSend =>
    simp only [execESend] at h
    split at h
    · split at h <;> cases h
      exact .inr (.inr (.inr (.send _ (by assumption) (by assumption))))
    · cases h
  case eRespAck =>
    simp only [execERespAck] at h; split at h <;> cases h; exact .inr (.inr (.inr (.respAck (by assumption))))
  case eRespNak =>
    simp only [execERespNak] at h; split at h <;> cases h; exact .inr (.inr (.inr (.respNak (by assumption))))
  case eRespOther b =>
    simp only [execERespOther] at h
    split at h
    · split at h <;> cases h
      exact .inr (.inr (.inr (.respOther b (by assumption))))
    · cases h
  case eRespTimeout =>
    simp only [execERespTimeout] at h; split at h <;> cases h; exact .inr (.inr (.inr (.respTimeout (by assumption))))
  case eBackoff u =>
    simp only [execEBackoff] at h; split at h <;> cases h; exact .inr (.inr (.inr (.backoff u (by assumption))))
  case ePace => simp only [execEPace] at h; split at h <;> cases h; exact .inr (.inr (.inr (.pace (by assumption))))
  case eDrain => simp only [execEDrain] at h; split at h <;> cases h; exact .inr (.inr (.inr (.drain (by assumption))))
  case eFault op =>
    simp only [execEFault] at h; split at h <;> cases h; exact .inr (.inr (.inr (.fault op _ (by assumption))))
  case hReset => cases h; exact .inr (.inr (.inl ⟨rfl, rfl⟩))
  case hLoad l =>
    simp only [execHLoad] at h
    split at h
    · cases h; exact .inl (quiet_refl _ _)
    · have hb : ¬s.busy = true := by assumption
      cases l <;> simp only at h
      · split at h <;> cases h
        exact .inl ⟨rfl, rfl, rfl, rfl, rfl, rfl, .refl _, rfl, fun k => (hb k).elim, .inl rfl⟩
      · split at h <;> cases h
        exact .inl ⟨rfl, rfl, rfl, rfl, rfl, rfl, .refl _, rfl, fun k => (hb k).elim, .inl rfl⟩
      · cases h
        unfold loadLength
        split
        · exact .inl ⟨rfl, rfl, rfl, rfl, rfl, rfl, .refl _, rfl, fun k => (hb k).elim, .inl rfl⟩
        · exact .inl (quiet_refl _ _)
  case hCfg c =>
    simp only [execHCfg] at h
    split at h <;> cases h
    · exact .inl (quiet_refl _ _)
    · have hb : ¬s.busy = true := by assumption
      exact .inl ⟨rfl, rfl, rfl, rfl, rfl, rfl, .refl _, rfl, fun k => (hb k).elim, .inl rfl⟩
  case hStart =>
    simp only [execHStart] at h
    split at h <;> cases h
    · exact .inl (quiet_refl _ _)
    · exact .inr (.inl ⟨.inr rfl, by simp_all, rfl⟩)
  case hStatus f =>
    unfold execHStatus at h
    split at h
    · cases h; exact .inl (respond_quiet _ _ _)
    · split at h <;> cases h; exact .inl (respond_quiet _ _ _)
    · split at h <;> cases h; exact .inl (respond_quiet _ _ _)
    · cases h; exact .inl (respond_quiet _ _ _)
  case hResult => cases h; exact .inl (respond_quiet _ _ _)
  case txWrite bs =>
    simp only [execTxWrite] at h
    split at h <;> cases h
    obtain ⟨idx, p, rfl⟩ := (isFrame_iff bs).1 (by assumption)
    exact .inl (txWrite_quiet _ _ _ _ (.inl rfl))
  case rxRead n q =>
    simp only [execRxRead] at h
    split at h <;> cases h
    have hel : (rxRead (readUse n) n q s).2.env.elapses = s.env.elapses := by
      unfold rxRead drawArrivals drawRead drawTail
      split <;> (rename_i hh; split at hh <;> split at hh <;> (injection hh with _ hh; rw [← hh]; rfl))
    obtain ⟨e, hd, -, -, g | ⟨bs, g⟩⟩ := rxRead_cases (readUse n) n q s <;>
      (rw [g] at hel
       simp only [g]
       exact .inl ⟨rfl, rfl, rfl, rfl, rfl, rfl, hd, hel, fun _ => ⟨rfl, rfl⟩, .inl rfl⟩)
  case rxClear =>
    cases h
    have hel : (rxClear s).2.env.elapses = s.env.elapses := by
      unfold rxClear drawClear
      split <;> split <;> rfl
    obtain ⟨e, hd, -, -, -, g | g⟩ := rxClear_cases s <;>
      (rw [g] at hel
       simp only [g]
       exact .inl ⟨rfl, rfl, rfl, rfl, rfl, rfl, hd, hel, fun _ => ⟨rfl, rfl⟩, .inl rfl⟩)

/-- What choosing the next operation leaves alone. -/
structure Chosen (s u : State) : Prop where
  par : u.par = s.par
  lockedCeiling : u.lockedCeiling = s.lockedCeiling
  ses : u.ses = s.ses
  cfg : u.cfg = s.cfg
  file : u.file = s.file
  blk : u.blk = s.blk
  trail : u.trail = s.trail
  hist : u.hist = s.hist
  answer : u.answer = s.answer
  sent : u.sent = s.sent
  fileEpoch : u.env.fileEpoch = s.env.fileEpoch
  trailEpoch : u.env.trailEpoch = s.env.trailEpoch

theorem chooseLine_run {bs : List Byte} {s u : State} {i : Instr} (h : chooseLine bs s = .run i u) :
    u = s ∧ decode bs = .ok i := by
  unfold chooseLine at h
  split at h <;> cases h
  exact ⟨rfl, by assumption⟩

theorem chooseLine_not_idle {bs : List Byte} {s u : State} : chooseLine bs s ≠ .idle u := by
  unfold chooseLine
  split <;> simp

theorem chooseEngine_cases {s u : State} {i : Instr} (h : chooseEngine s = .run i u ∨ chooseEngine s = .idle u) :
    Chosen s u := by
  unfold chooseEngine at h
  split at h
  · obtain h | h := h <;> cases h; exact ⟨rfl, rfl, rfl, rfl, rfl, rfl, rfl, rfl, rfl, rfl, rfl, rfl⟩
  · obtain h | h := h <;> cases h; exact ⟨rfl, rfl, rfl, rfl, rfl, rfl, rfl, rfl, rfl, rfl, rfl, rfl⟩
  · unfold chooseResponse at h
    obtain ⟨e, hd, -, -, g | ⟨bs, g⟩⟩ := rxRead_cases .response 1 s.cfg.respTimeout s
    · rw [g] at h
      obtain h | h := h <;> cases h
      exact ⟨rfl, rfl, rfl, rfl, rfl, rfl, rfl, rfl, rfl, rfl, hd.3, hd.4⟩
    · rw [g] at h
      simp only at h
      obtain h | h := h
      · rw [(chooseLine_run h).1]
        exact ⟨rfl, rfl, rfl, rfl, rfl, rfl, rfl, rfl, rfl, rfl, hd.3, hd.4⟩
      · exact (chooseLine_not_idle h).elim
  · obtain h | h := h <;> cases h
    obtain ⟨e, he, hd, -⟩ := drawRandom_env s
    rw [he]
    exact ⟨rfl, rfl, rfl, rfl, rfl, rfl, rfl, rfl, rfl, rfl, hd.3, hd.4⟩
  · obtain h | h := h <;> cases h; exact ⟨rfl, rfl, rfl, rfl, rfl, rfl, rfl, rfl, rfl, rfl, rfl, rfl⟩
  · obtain h | h := h <;> cases h; exact ⟨rfl, rfl, rfl, rfl, rfl, rfl, rfl, rfl, rfl, rfl, rfl, rfl⟩
  · obtain h | h := h <;> cases h; exact ⟨rfl, rfl, rfl, rfl, rfl, rfl, rfl, rfl, rfl, rfl, rfl, rfl⟩

theorem choose_cases {s u : State} {i : Instr} (h : choose s = .run i u ∨ choose s = .idle u) : Chosen s u := by
  have key : (chooseEngine (takeTurn s) = .run i u ∨ chooseEngine (takeTurn s) = .idle u) → Chosen s u := by
    intro g
    obtain ⟨a, b, c, d, e, f, k, l, m, n, o, q⟩ := chooseEngine_cases g
    exact ⟨a, b, c, d, e, f, k, l, m, n, o, q⟩
  unfold choose at h
  split at h
  · obtain h | h := h <;> cases h; exact ⟨rfl, rfl, rfl, rfl, rfl, rfl, rfl, rfl, rfl, rfl, rfl, rfl⟩
  · split at h
    · exact key h
    · exact key h
    · obtain h | h := h <;> cases h; exact ⟨rfl, rfl, rfl, rfl, rfl, rfl, rfl, rfl, rfl, rfl, rfl, rfl⟩
    · obtain h | h := h
      · rw [(chooseLine_run h).1]; exact ⟨rfl, rfl, rfl, rfl, rfl, rfl, rfl, rfl, rfl, rfl, rfl, rfl⟩
      · exact (chooseLine_not_idle h).elim

/-- Everything a step that answers a next state can do: nothing beyond the choice, or one operation after it. -/
theorem step_cases {s t : State} (h : step s = .next t) :
    Chosen s t ∨ ∃ i u, Chosen s u ∧ exec i u = .next t := by
  unfold step at h
  split at h
  · rename_i i u hc
    exact .inr ⟨i, u, choose_cases (.inl hc), h⟩
  · rename_i u hc
    cases h
    exact .inl (choose_cases (i := .ack) (.inr hc))
  · cases h

/-- One step of a run. -/
theorem run_succ (M : Host.Core) (n : Nat) (s t : M.State) (h : M.step s = .next t) :
    M.run (n + 1) s = M.run n t := by
  rw [Host.Core.run.eq_def]
  simp only [h]

/-- One step of a run of the machine. -/
theorem run_succ_next {n : Nat} {s t : State} (h : step s = .next t) :
    Host.Core.run Sys2Proof.core (n + 1) s = Host.Core.run Sys2Proof.core n t :=
  run_succ Sys2Proof.core n s t h

end Sys2Proof.Machine
end

