-- ==== Sys2Proof/Laws/History.lean ====
section
/-! SUPPORT. What one more event does to each count on the event history. -/

namespace Sys2Proof.Machine

theorem nwrites_append (h : List Event) (e : Event) : nwrites (h ++ [e]) = nwrites h + if e.isWrite then 1 else 0 := by
  simp [nwrites, List.countP_append, List.countP_cons]

theorem nneg_append (h : List Event) (e : Event) : nneg (h ++ [e]) = nneg h + if e.isNegative then 1 else 0 := by
  simp [nneg, List.countP_append, List.countP_cons]

theorem nacks_append (h : List Event) (e : Event) : nacks (h ++ [e]) = nacks h + if e.isAck then 1 else 0 := by
  simp [nacks, List.countP_append, List.countP_cons]

theorem negativesSinceAck_append (h : List Event) (e : Event) :
    negativesSinceAck (h ++ [e]) = countNegative (negativesSinceAck h) e := by
  simp [negativesSinceAck]

theorem framesSinceAck_append (h : List Event) (e : Event) :
    framesSinceAck (h ++ [e]) = collectFrame (framesSinceAck h) e := by
  simp [framesSinceAck]

theorem outstanding_append (h : List Event) (e : Event) :
    outstanding (h ++ [e]) = trackOutstanding (outstanding h) e := by
  simp [outstanding]

end Sys2Proof.Machine
end

