-- ==== Sys2Proof/Laws/PerInstr.lean ====
section
/-! SUPPORT. A fact of every constructor's syntax: an encoding, where there is one, has 0, 1 or 132 bytes (R96, R99). -/

namespace Sys2Proof.Laws.EncodedLength

/-- The statement, for one instruction. -/
def Statement (i : Instr) : Prop :=
  ∀ bs, encode i = some bs → bs.length = 0 ∨ bs.length = 1 ∨ bs.length = 132

theorem frame (idx : Byte) (p : Block) : Statement (.frame idx p) := by
  intro bs h
  cases h
  exact .inr (.inr ((congrArg List.length (Machine.frameLayout_eq_buildFrame idx p)).trans (Machine.buildFrame_length idx p)))

theorem ack : Statement .ack := by
  intro bs h
  cases h
  exact .inr (.inl rfl)

theorem nak : Statement .nak := by
  intro bs h
  cases h
  exact .inr (.inl rfl)

theorem other (b : Byte) : Statement (.other b) := by
  intro bs h
  cases h
  exact .inr (.inl rfl)

theorem timeout : Statement .timeout := by
  intro bs h
  cases h
  exact .inl rfl

theorem pad (g : List Byte) : Statement (.pad g) := by
  intro bs h
  cases h

theorem nblkOf (n : Nat) : Statement (.nblkOf n) := by
  intro bs h
  cases h

theorem chunk (n : Nat) : Statement (.chunk n) := by
  intro bs h
  cases h

theorem widx (k : Nat) : Statement (.widx k) := by
  intro bs h
  cases h

theorem checksum (p : Block) : Statement (.checksum p) := by
  intro bs h
  cases h

theorem buildFrame (idx : Byte) (p : Block) : Statement (.buildFrame idx p) := by
  intro bs h
  cases h

theorem buildFrameRaw (idx : Nat) (bs : List Byte) : Statement (.buildFrameRaw idx bs) := by
  intro bs h
  cases h

theorem frameOf (k : Nat) : Statement (.frameOf k) := by
  intro bs h
  cases h

theorem eStart : Statement .eStart := by
  intro bs h
  cases h

theorem eSend : Statement .eSend := by
  intro bs h
  cases h

theorem eRespAck : Statement .eRespAck := by
  intro bs h
  cases h

theorem eRespNak : Statement .eRespNak := by
  intro bs h
  cases h

theorem eRespOther (b : Byte) : Statement (.eRespOther b) := by
  intro bs h
  cases h

theorem eRespTimeout : Statement .eRespTimeout := by
  intro bs h
  cases h

theorem eBackoff (u : Rand) : Statement (.eBackoff u) := by
  intro bs h
  cases h

theorem ePace : Statement .ePace := by
  intro bs h
  cases h

theorem eDrain : Statement .eDrain := by
  intro bs h
  cases h

theorem eFault (op : TransportOp) : Statement (.eFault op) := by
  intro bs h
  cases h

theorem hReset : Statement .hReset := by
  intro bs h
  cases h

theorem hLoad (l : Load) : Statement (.hLoad l) := by
  intro bs h
  cases h

theorem hCfg (c : CfgWrite) : Statement (.hCfg c) := by
  intro bs h
  cases h

theorem hStart : Statement .hStart := by
  intro bs h
  cases h

theorem hStatus (f : StatusForm) : Statement (.hStatus f) := by
  intro bs h
  cases h

theorem hResult : Statement .hResult := by
  intro bs h
  cases h

theorem txWrite (bs : List Byte) : Statement (.txWrite bs) := by
  intro bs h
  cases h

theorem rxRead (n : Nat) (t : Rat) : Statement (.rxRead n t) := by
  intro bs h
  cases h

theorem rxClear : Statement .rxClear := by
  intro bs h
  cases h

end Sys2Proof.Laws.EncodedLength
end

