-- ==== Sys2Proof/Tests/Slice0.lean ====
section
/-! SUPPORT. The model's own tests, with expected results from 95_test_vectors.md and hand calculation from the rules,
and for every obligation with hypotheses a theorem that meets them. -/

namespace Sys2Proof.Tests

set_option Elab.async false

open Sys2Proof.Machine

/-! ### Small states -/

/-- What a next state holds. -/
def after {α : Type} (f : State → α) : Host.Outcome State Fault Refusal → Option α
  | .next t => some (f t)
  | .fault _ => none
  | .refused _ => none

/-- Why an operation stopped with a fault. -/
def faultOf : Host.Outcome State Fault Refusal → Option Fault
  | .next _ => none
  | .fault r => some r
  | .refused _ => none

/-- Why an operation was refused. -/
def refusalOf : Host.Outcome State Fault Refusal → Option Refusal
  | .next _ => none
  | .fault _ => none
  | .refused r => some r

def refusal (i : Instr) (s : State) : Option Refusal := refusalOf (exec i s)

/-- 128 bytes, all `b`. -/
def fill (b : Byte) : Block := ⟨List.replicate 128 b, by simp⟩

/-- `48 65 6C 6C 6F 1A x123`. -/
def hello : Block := ⟨[0x48, 0x65, 0x6C, 0x6C, 0x6F] ++ List.replicate 123 0x1A, by decide +kernel⟩

/-- A state of a session of three blocks, with the default ceiling, on a transport that will not fault. -/
def mid (p : Phase) (o : SessionOutcome) (cursor : Nat) (rpt : Nat) : State :=
  { State.reset with
    lockedCeiling := 10
    ses := { Session.reset with phase := p, outcome := o, cursor := cursor, rpt := rpt, nblk := 3 }
    blk := [fill 0x00, hello, fill 0x1A]
    env := { Env.initial with clears := [true], writes := [true], reads := [some [0x06]], tails := [some [0x15, 0x15]],
                              elapses := [5, 7] } }

/-- (`PHASE`, `CURSOR`, `RPT`, `OUTCOME`), as section 2.6 of the vectors writes it. -/
def view (s : State) : Phase × Nat × Nat × SessionOutcome :=
  (s.ses.phase, s.ses.cursor, s.ses.rpt, s.ses.outcome)

/-! ### The checks of `WellFormed`: an ill-formed term for each -/

theorem test_illformed_other_ack : (Instr.other 0x06).wellFormed .default = false := by decide
theorem test_illformed_other_nak : (Instr.other 0x15).wellFormed .default = false := by decide
theorem test_illformed_eRespOther : (Instr.eRespOther 0x06).wellFormed .default = false := by decide
theorem test_illformed_pad : (Instr.pad (List.replicate 129 0)).wellFormed .default = false := by decide +kernel
theorem test_illformed_nblkOf : (Instr.nblkOf (2 ^ 39 - 127)).wellFormed .default = false := by decide +kernel
theorem test_illformed_chunk : (Instr.chunk (2 ^ 39 - 127)).wellFormed .default = false := by decide +kernel
theorem test_illformed_hLoad_byte : (Instr.hLoad (.byte (2 ^ 39 - 128) 0)).wellFormed .default = false := by
  decide +kernel
theorem test_illformed_hLoad_whole (s : List Byte) (h : s.length = 2 ^ 39 - 127) :
    (Instr.hLoad (.whole s)).wellFormed .default = false := by
  simp [Instr.wellFormed, loadOk, h, Parameters.default]
theorem test_illformed_hStatus_file : (Instr.hStatus (.reg (.file (2 ^ 39 - 128)))).wellFormed .default = false := by
  decide +kernel
theorem test_illformed_hStatus_trail : (Instr.hStatus (.reg (.trail 256))).wellFormed .default = false := by decide +kernel
/-- 132 bytes that are no frame: the checksum of section 2.4 one too high. -/
theorem test_illformed_txWrite : (Instr.txWrite ([0x01, 0x2D, 0xD2] ++ List.replicate 128 0x00 ++ [0x01])).wellFormed
    .default = false := by decide +kernel
theorem test_illformed_widx : (Instr.widx (2 ^ 32)).wellFormed .default = false := by decide +kernel
theorem test_illformed_rxRead : (Instr.rxRead 1 (-1)).wellFormed .default = false := by decide +kernel

/-- An ill-formed operand is refused by the meaning too, by name. -/
theorem test_illformed_refused : refusal (.pad (List.replicate 129 0)) State.reset = some .operandOutOfDomain := by
  decide +kernel

/-! ### Decoding: bytes written out from R90 and R96 -/

/-- `BUILD_FRAME(45, 00 x128)` of section 2.4: `01 2D D2 00 x128 00`. -/
theorem test_decode_frame :
    decode ([0x01, 0x2D, 0xD2] ++ List.replicate 128 0x00 ++ [0x00]) = .ok (.frame 0x2D (fill 0x00)) := by
  decide +kernel
theorem test_decode_ack : decode [0x06] = .ok .ack := by decide
theorem test_decode_nak : decode [0x15] = .ok .nak := by decide
/-- Section 2.5: `86` is `06` with bit 7 set, and no bit is masked. -/
theorem test_decode_other : decode [0x86] = .ok (.other 0x86) := by decide
theorem test_decode_timeout : decode [] = .ok .timeout := by decide

/-- The table's numbering, bit 0 the least of the first byte: `01 00 FF 00 x128 00` is `BUILD_FRAME(0, 00 x128)`. -/
theorem test_tableWord_frame : decodeTableWord 1056 0xFF0001 = some (.frame 0x00 (fill 0x00)) := by decide +kernel
theorem test_tableWord_ack : decodeTableWord 8 0x06 = some .ack := by decide +kernel
theorem test_tableWord_nak : decodeTableWord 8 0x15 = some .nak := by decide +kernel
theorem test_tableWord_other : decodeTableWord 8 0x43 = some (.other 0x43) := by decide +kernel
theorem test_tableWord_timeout : decodeTableWord 0 0 = some .timeout := by decide +kernel

theorem test_reject_header :
    decode ([0x02, 0x01, 0xFE] ++ List.replicate 128 0x1A ++ [0x00]) = .error (.badHeader 0x02) := by decide +kernel
theorem test_reject_complement :
    decode ([0x01, 0x01, 0xFF] ++ List.replicate 128 0x1A ++ [0x00]) = .error (.badComplement 0x01 0xFF) := by
  decide +kernel
theorem test_reject_checksum :
    decode ([0x01, 0x01, 0xFE] ++ List.replicate 128 0xFF ++ [0x81]) = .error (.badChecksum 0x81) := by decide +kernel
theorem test_reject_short : decode ([0x01, 0x01, 0xFE] ++ List.replicate 128 0x1A) = .error (.badLength 131) := by
  decide +kernel
theorem test_reject_long : decode (List.replicate 133 0x01) = .error (.badLength 133) := by decide +kernel

/-- An item on the line is the very next step, and the first after reset. -/
theorem test_fetch_runs_ack : after (·.pending) (step (State.reset.withFetchWord 8 0x06)) = some [0x06] := by
  decide +kernel

/-! ### The items of the line -/

/-- A frame goes out byte 0 first; where the transport faults, nothing does. -/
theorem test_frame : after (·.sent) (exec (.frame 0x2D (fill 0x00)) (mid .idle .none 0 0)) =
    some [[0x01, 0x2D, 0xD2] ++ List.replicate 128 0x00 ++ [0x00]] := by decide +kernel
theorem test_ack : after view (exec .ack (mid .wait .none 1 10)) = some (.pace, 2, 0, .none) := by decide +kernel
theorem test_ack_idle : after (·.pending) (exec .ack (mid .idle .none 0 0)) = some [0x06] := by decide +kernel
theorem test_nak : after view (exec .nak (mid .wait .none 1 2)) = some (.backoff, 1, 3, .none) := by decide +kernel
theorem test_other : after view (exec (.other 0x43) (mid .wait .none 1 9)) = some (.backoff, 1, 10, .none) := by
  decide +kernel
theorem test_timeout : after view (exec .timeout (mid .wait .none 1 10)) = some (.drain, 1, 11, .aborted) := by
  decide +kernel

/-! ### The Framer (sections 2.1 to 2.4) -/

theorem test_pad : after (·.answer) (exec (.pad [0x48, 0x65, 0x6C, 0x6C, 0x6F]) State.reset) = some (.block hello) := by
  decide +kernel
theorem test_pad_empty : after (·.answer) (exec (.pad []) State.reset) = some (.block (fill 0x1A)) := by decide +kernel
theorem test_nblkOf : ([0, 1, 127, 128, 129, 256, 257, 300].map fun n => after (·.answer) (exec (.nblkOf n) State.reset)) =
    [1, 1, 1, 1, 2, 2, 3, 3].map fun k => some (Answer.count k) := by decide +kernel

/-- `00 01 .. 7F 80`, 129 bytes, loaded. -/
def loaded : State := loadWhole ((List.range 129).map (BitVec.ofNat 8)) State.reset

theorem test_chunk : after (·.answer) (exec (.chunk 129) loaded) = some (.blocks
    [⟨(List.range 128).map (BitVec.ofNat 8), by decide +kernel⟩, ⟨0x80 :: List.replicate 127 0x1A, by decide +kernel⟩]) := by
  decide +kernel
/-- R60: nothing is read at or beyond `FILE_LEN`. -/
theorem test_chunk_fileLen : (match exec (.chunk 130) loaded with | .fault r => some r | _ => none) =
    some (.beyondFileLen 130) := by decide +kernel
theorem test_widx : ([0, 1, 253, 254, 255, 256, 299, 509, 510, 65534, 65535].map widx) =
    [1, 2, 254, 255, 1, 2, 45, 255, 1, 255, 1] := by decide +kernel
theorem test_checksum : ([fill 0x00, fill 0xFF, fill 0x1A, hello].map fun p => after (·.answer) (exec (.checksum p) State.reset)) =
    [0x00, 0x80, 0x00, 0x72].map fun c => some (Answer.byte c) := by decide +kernel
theorem test_buildFrame : after (·.answer) (exec (.buildFrame 0x01 hello) State.reset) = some (.frame
    ([0x01, 0x01, 0xFE, 0x48, 0x65, 0x6C, 0x6C, 0x6F] ++ List.replicate 123 0x1A ++ [0x72])) := by decide +kernel
theorem test_buildFrameRaw : after (·.answer) (exec (.buildFrameRaw 257 hello.bytes) State.reset) =
    after (·.answer) (exec (.buildFrame 1 hello) State.reset) := by decide +kernel
theorem test_buildFrameRaw_bad :
    ([0, 127, 129].map fun n => faultOf (exec (.buildFrameRaw 1 (List.replicate n 0)) State.reset)) =
    [some (.invalidPayloadSize 0), some (.invalidPayloadSize 127), some (.invalidPayloadSize 129)] := by decide +kernel
theorem test_frameOf : after (·.answer) (exec (.frameOf 1) (mid .send .none 1 0)) = some (.frame
    ([0x01, 0x02, 0xFD, 0x48, 0x65, 0x6C, 0x6C, 0x6F] ++ List.replicate 123 0x1A ++ [0x72])) := by decide +kernel
theorem test_frameOf_outside : faultOf (exec (.frameOf 3) (mid .send .none 1 0)) = some (.noSuchBlock 3) := by
  decide +kernel

/-! ### The engine (section 2.6) -/

theorem test_eStart : after (fun t => (view t, t.ses.nblk, t.hist, t.blk.length))
    (exec .eStart (loadLength 300 State.reset)) = some ((.send, 0, 0, .none), 3, [], 3) := by decide +kernel
theorem test_eStart_busy : refusal .eStart (mid .wait .none 1 2) = some (.notEnabled .wait) := by decide +kernel
theorem test_eSend : after (fun t => (view t, t.hist, t.ses.elapsed)) (exec .eSend (mid .send .none 1 2)) =
    some ((.wait, 1, 2, .none), [.clear, .write
      ([0x01, 0x02, 0xFD, 0x48, 0x65, 0x6C, 0x6C, 0x6F] ++ List.replicate 123 0x1A ++ [0x72])], 5) := by decide +kernel
/-- Program P5: the write faults after the clear; nothing is written. -/
theorem test_eSend_fault : after (fun t => (t.hist, t.sent, t.statusWord))
    (exec .eSend ((mid .send .none 1 0).setEnv { Env.initial with clears := [true], writes := [false] })) =
    some ([.clear, .fault .txWrite], [], 0x026E) := by decide +kernel
theorem test_eRespAck : after view (exec .eRespAck (mid .wait .none 1 2)) = some (.pace, 2, 0, .none) := by decide +kernel
theorem test_eRespNak : after view (exec .eRespNak (mid .wait .none 1 2)) = some (.backoff, 1, 3, .none) := by
  decide +kernel
theorem test_eRespOther : after view (exec (.eRespOther 0x43) (mid .wait .none 1 9)) = some (.backoff, 1, 10, .none) := by
  decide +kernel
theorem test_eRespTimeout : after (fun t => (view t, t.ses.cause)) (exec .eRespTimeout (mid .wait .none 1 10)) =
    some ((.drain, 1, 11, .aborted), .retryExhausted) := by decide +kernel
theorem test_eBackoff : after view (exec (.eBackoff ⟨1, 0⟩) (mid .backoff .none 1 3)) = some (.send, 1, 3, .none) := by
  decide +kernel
/-- Section 2.7: `RPT = 7`, `u = 0.5` gives 0.15 (`a = b + 1` is one half: `1 / 2`). -/
theorem test_eBackoff_duration : backoffDelay (Rand.val ⟨1, 0⟩) (mid .backoff .none 1 7) = 3 / 20 := by
  norm_num [backoffDelay, Rand.val, mid, State.reset, State.resetWith, Settings.reset]
theorem test_ePace : after view (exec .ePace (mid .pace .none 2 0)) = some (.send, 2, 0, .none) := by decide +kernel
theorem test_ePace_last : after view (exec .ePace (mid .pace .none 3 0)) = some (.drain, 3, 0, .completed) := by
  decide +kernel
theorem test_eDrain : after (fun t => (view t, t.trailBytes)) (exec .eDrain (mid .drain .completed 3 0)) =
    some ((.done, 3, 0, .completed), [0x15, 0x15]) := by decide +kernel
/-- R9, R175: with a `TRAIL_CAP` of 1 the first of the two bytes is kept. -/
theorem test_eDrain_trailCap : after (fun t => (t.trailBytes, t.pending)) (exec .eDrain
    { mid .drain .completed 3 0 with par := { Parameters.default with trailCap := 1 } }) =
    some ([0x15], [0x15]) := by decide +kernel
theorem test_eFault : after (fun t => (view t, t.ses.cause, t.ses.trailLen)) (exec (.eFault .rxRead) (mid .drain .completed 3 0)) =
    some ((.done, 3, 0, .fault), .transportFault, 0) := by decide +kernel
theorem test_eFault_wait : after view (exec (.eFault .rxRead) (mid .wait .none 1 2)) = some (.done, 1, 2, .fault) := by
  decide +kernel

/-! ### The host -/

theorem test_hReset : after (fun t => (view t, t.ses.nblk, t.cfg.retryCeiling)) (exec .hReset (mid .wait .none 1 2)) =
    some ((.idle, 0, 0, .none), 0, 10) := by decide +kernel
theorem test_hLoad : after (fun t => (t.cfg.fileLen, (List.range 5).map t.fileByte))
    (exec (.hLoad (.whole [0x48, 0x65, 0x6C, 0x6C, 0x6F])) State.reset) =
    some (5, [0x48, 0x65, 0x6C, 0x6C, 0x6F]) := by decide +kernel
theorem test_hLoad_busy : exec (.hLoad (.length 5)) (mid .wait .none 1 2) = .next (mid .wait .none 1 2) := rfl
theorem test_hCfg : after (·.cfg.retryCeiling) (exec (.hCfg (.retryCeiling 3)) State.reset) = some 3 := by decide +kernel
theorem test_hCfg_illegal : after (·.cfg.retryCeiling) (exec (.hCfg (.retryCeiling 255)) State.reset) = some 10 := by
  decide +kernel
theorem test_hStart : after view (exec .hStart (mid .done .aborted 1 11)) = some (.send, 0, 0, .none) := by decide +kernel
theorem test_hStart_busy : exec .hStart (mid .wait .none 1 2) = .next (mid .wait .none 1 2) := rfl
/-- Program P1's last `STATUS`. -/
theorem test_hStatus : after (·.answer) (exec (.hStatus (.reg .status)) (mid .done .completed 3 0)) =
    some (.reg (.word 0x0066)) := by decide +kernel
theorem test_hResult : after (·.answer) (exec .hResult (mid .done .completed 3 0)) =
    some (.result ⟨3, 3, 0, [], 0, .completed, .none⟩) := by decide +kernel

/-! ### The transport -/

/-- The frame of section 2.4; its header changed to `02`, it is refused. -/
theorem test_txWrite : after (fun t => (t.answer, t.sent))
    (exec (.txWrite ([0x01, 0x2D, 0xD2] ++ List.replicate 128 0x00 ++ [0x00])) (mid .idle .none 0 0)) =
    some (.success, [[0x01, 0x2D, 0xD2] ++ List.replicate 128 0x00 ++ [0x00]]) := by decide +kernel
theorem test_txWrite_noFrame : refusal (.txWrite ([0x02, 0x2D, 0xD2] ++ List.replicate 128 0x00 ++ [0x00]))
    (mid .idle .none 0 0) = some .operandOutOfDomain := by decide +kernel
theorem test_rxRead : after (fun t => (t.answer, t.pending)) (exec (.rxRead 1 (27 / 10))
    ((mid .idle .none 0 0).setPending [0x15])) = some (.received [0x15], [0x06]) := by decide +kernel
theorem test_rxClear : after (fun t => (t.answer, t.pending)) (exec .rxClear ((mid .idle .none 0 0).setPending [0x15])) =
    some (.success, []) := by decide +kernel

/-! ### Sessions, on the stub -/

/-- Whether a scenario runs to its end and meets every `EXPECT`. -/
def passes (ls : List ScenarioLine) : Bool :=
  match runScenario ls State.reset with
  | .next b => b.met
  | .fault _ => false
  | .refused _ => false

/-- Program P7: the ceiling of zero. -/
theorem test_session_ceiling_zero : passes [.reset, .cfg (.retryCeiling 0), .file [0x48, 0x65, 0x6C, 0x6C, 0x6F],
    .script [(.nak, 1)] .timeout, .start, .expect (.outcome .aborted), .expect (.cursor 0), .expect (.rpt 1),
    .expect (.nwrites 1), .expect (.nneg 1)] = true := by decide +kernel

/-- The reset values of R45, a `FILE_LEN` written alone, and one above `FILE_CAP`, which is ignored (R35). -/
theorem test_scenario_registers : passes [.reset, .expect (.reg .retryCeiling (.word 10)),
    .expect (.reg .paceDelay (.duration (3 / 100))), .cfgFileLen 300, .cfgFileLen (2 ^ 39 - 127),
    .expect (.reg .fileLen (.word 300))] = true := by decide +kernel

/-- Program P9 with a ceiling of 0 (by hand from R162), the tail of P2 held over both sessions (R216), and a write of the
ceiling in `DONE`, which changes no result (R38). -/
theorem test_session_second : passes [.reset, .cfg (.retryCeiling 0), .file [0x48, 0x65, 0x6C, 0x6C, 0x6F],
    .script [(.nak, 1)] .timeout, .tail [0x15, 0x15], .start, .expect (.outcome .aborted),
    .expect (.trail [0x15, 0x15]), .cfg (.retryCeiling 3), .expect (.rpt 1),
    .fileOf 129 (BitVec.ofNat 8), .script [(.ack, 2)] .timeout, .start,
    .expect (.outcome .completed), .expect (.cause .none), .expect (.cursor 2), .expect (.nblk 2), .expect (.rpt 0),
    .expect (.nwrites 2), .expect (.nneg 0), .expect (.trailLen 2), .expect (.status 0x0066)] = true := by decide +kernel

/-! ### Witnesses: states and operands that meet the hypotheses of the statements -/

theorem witness_EncodedItemDecodesToItself :
    ((Instr.frame 0xFF hello).wellFormed .default = true ∧ (encode (.frame 0xFF hello)).isSome = true) ∧
    ((Instr.other 0x00).wellFormed .default = true ∧ encode (.other 0x00) = some [0x00]) ∧
    (Instr.timeout.wellFormed .default = true ∧ encode .timeout = some []) := by decide +kernel

theorem witness_DecodedBytesAreTheEncoding : decode (0x01 :: 0x00 :: 0xFF :: List.replicate 129 0x00) =
    .ok (.frame 0x00 (fill 0x00)) ∧ decode [0xFF] = .ok (.other 0xFF) := by decide +kernel

theorem witness_ResponseBytesAreClassified : (mid .wait .none 1 2).ses.phase = .wait ∧ [0x06].length ≤ 1 ∧ [0x15].length ≤ 1 ∧
    ([0x14].length ≤ 1 ∧ (0x14 : Byte) ≠ 0x06 ∧ (0x14 : Byte) ≠ 0x15) ∧ ([] : List Byte).length ≤ 1 := by decide

theorem witness_PadFillsTheFinalGroup : ([] : List Byte).length ≤ 128 ∧ hello.bytes.length ≤ 128 := by decide +kernel

theorem witness_BlockCountIsTheCeiling : 0 ≤ State.reset.par.fileCap ∧ 0 = 0 ∧
    2 ^ 39 - 128 ≤ State.reset.par.fileCap ∧ 0 < 2 ^ 39 - 128 := by
  decide +kernel

/-- Two states whose files differ only beyond their length, and the last block of one. -/
theorem witness_ChunkCutsTheFileIntoBlocks : 130 ≤ loaded.par.fileCap ∧ loaded.cfg.fileLen < 130 ∧
    129 ≤ loaded.cfg.fileLen ∧ 129 ≤ (loadByte 129 7 loaded).par.fileCap ∧ 129 ≤ (loadByte 129 7 loaded).cfg.fileLen ∧
    (∃ b, (chunk loaded.fileByte 129)[1]? = some b) ∧
    (∀ a, a < 129 → (loadByte 129 7 loaded).fileByte a = loaded.fileByte a) := by
  refine ⟨by decide +kernel, by decide +kernel, by decide +kernel, by decide +kernel, by decide +kernel, ⟨_, rfl⟩, ?_⟩
  decide +kernel

theorem witness_ChunkReconstructsTheFile :
    (0x1A : Byte) ∈ ((chunk (fun _ => 0x00) 5).flatMap Block.bytes).drop 5 := by decide +kernel

theorem witness_OneByteChangeIsDetected :
    ((∀ j, j ≠ 127 → (fill 0x1A).bytes[j]? = (⟨List.replicate 127 0x1A ++ [0x1B], by simp⟩ : Block).bytes[j]?) ∧
      (fill 0x1A).bytes[127]? ≠ (⟨List.replicate 127 0x1A ++ [0x1B], by simp⟩ : Block).bytes[127]?) ∧
    (⟨0x01 :: 0xFF :: List.replicate 126 0x00, by simp⟩ : Block).bytes.Perm
      (⟨0xFF :: 0x01 :: List.replicate 126 0x00, by simp⟩ : Block).bytes := by
  refine ⟨⟨fun j hj => ?_, by decide +kernel⟩, .swap _ _ _⟩
  obtain h | h : j < 127 ∨ 128 ≤ j := by omega
  · have key : ∀ k : Fin 127, (fill 0x1A).bytes[k.val]? =
        (⟨List.replicate 127 0x1A ++ [0x1B], by simp⟩ : Block).bytes[k.val]? := by decide +kernel
    exact key ⟨j, h⟩
  · rw [List.getElem?_eq_none (by simpa [fill] using h), List.getElem?_eq_none (by simpa using h)]

theorem witness_WireIndexIsOneTo255 : 2 ^ 32 - 1 < 2 ^ State.reset.par.cursorBits := by decide +kernel

theorem witness_FrameBytesStandInPlace : 127 < 128 := by decide

theorem witness_FrameDeterminesItsOperands : buildFrame 0x01 hello = buildFrame (widx 255) hello := by decide +kernel

theorem witness_RawFrameNeeds128Bytes : hello.bytes.length = 128 ∧ ([] : List Byte).length ≠ 128 := by decide +kernel

theorem witness_FrameOfUsesTheStoredBlock : (2 < (mid .send .none 1 2).ses.nblk ∧
      (mid .send .none 1 2).blk[2]? = some (fill 0x1A)) := by decide +kernel

theorem witness_LocationsThatDoNotExistFault : (mid .send .none 1 2).ses.nblk ≤ 3 ∧
    (mid .done .completed 3 0).busy = false ∧ (mid .done .completed 3 0).par.fileCap ≤ 2 ^ 39 - 128 ∧
    (mid .done .completed 3 0).par.trailCap.val ≤ 256 := by decide +kernel

theorem witness_StartMakesAFreshSession : (mid .drain .completed 3 0).busy = true ∧ State.reset.ses.phase = .idle ∧ (mid .done .aborted 1 11).ses.phase = .done := by
  decide

/-- The state `s` with the transport's answers to one clear and one write. -/
def answers (c w : Bool) (s : State) : State := s.setEnv { s.env with clears := [c], writes := [w] }

theorem witness_SendClearsThenWritesTheFrame : ∀ c w : Bool, ∃ (s : State) (p : Block) (cs ws : List Bool), s.ses.phase = .send ∧
    s.block? s.ses.cursor = some p ∧ s.env.clears = c :: cs ∧ s.env.writes = w :: ws :=
  fun c w => ⟨answers c w (mid .send .none 1 2), hello, [], [], rfl, rfl, rfl, rfl⟩

theorem witness_SendCompletesOnEveryAnswer : (mid .send .none 2 10).ses.phase = .send ∧
    (mid .send .none 2 10).block? (mid .send .none 2 10).ses.cursor = some (fill 0x1A) := ⟨rfl, rfl⟩

/-- For the last clause: the trailing read after an abort. -/
theorem witness_NegativeSignalCountsOrAborts_end : ∃ t, (mid .drain .aborted 1 11).ses.phase = .drain ∧
    exec .eDrain (mid .drain .aborted 1 11) = .next t ∧ t.ses.phase = .done := ⟨_, rfl, rfl, rfl⟩

theorem witness_AckAdvancesTheCursor : (mid .wait .none 2 10).ses.phase = .wait := rfl

theorem witness_NegativeSignalCountsOrAborts :
    ((mid .wait .none 1 10).ses.phase = .wait ∧
      (mid .wait .none 1 10).cfg.retryCeiling < (mid .wait .none 1 10).ses.rpt + 1) ∧
    ((mid .wait .none 1 9).ses.phase = .wait ∧
      (mid .wait .none 1 9).ses.rpt + 1 ≤ (mid .wait .none 1 9).cfg.retryCeiling) ∧
    (0x07 : Byte) ≠ 0x06 ∧ (0x07 : Byte) ≠ 0x15 := by decide +kernel

theorem witness_LineItemsOutsideTheResponseRead : (mid .send .none 1 2).ses.phase ≠ .wait ∧
    (0xFF : Byte) ≠ 0x06 ∧ (0xFF : Byte) ≠ 0x15 := by decide

theorem witness_BackoffWaitsThenSendsAgain : (mid .backoff .none 1 3).ses.phase = .backoff := rfl

theorem witness_RandomInputFillsTheUnitRange : (0 : Rat) ≤ 0 ∧ (0 : Rat) < 1 ∧ (0 : Rat) ≤ 99 / 100 ∧ (99 / 100 : Rat) < 1 := by
  norm_num

theorem witness_PaceSendsTheNextBlockOrCompletes :
    ((mid .pace .none 3 0).ses.phase = .pace ∧ (mid .pace .none 3 0).ses.cursor = (mid .pace .none 3 0).ses.nblk) ∧
    ((mid .pace .none 2 0).ses.phase = .pace ∧ (mid .pace .none 2 0).ses.cursor ≠ (mid .pace .none 2 0).ses.nblk) := by
  decide

/-- The state `s` with what the trailing read meets. -/
def tailed (x : Option (List Byte)) (s : State) : State := s.setEnv { s.env with tails := [x] }

/-- A tail of 257 bytes, one more than is read; and a fault. -/
theorem witness_DrainStoresTheTrailingBytes :
    (∃ (s : State) (x : Option (List Byte)) (xs : List (Option (List Byte))) (bs : List Byte) (b : Byte), s.ses.phase = .drain ∧ s.env.tails = x :: xs ∧ x = some bs ∧
      ((s.pending ++ bs).take 256)[255]? = some b ∧ ((s.pending ++ bs).take 256).length ≤ 256) ∧
    (∃ (s : State) (x : Option (List Byte)) (xs : List (Option (List Byte))), s.ses.phase = .drain ∧ s.env.tails = x :: xs ∧ x = none) :=
  ⟨⟨tailed (some (List.replicate 257 0x15)) (mid .drain .completed 3 0), _, [], List.replicate 257 0x15, 0x15, rfl, rfl, rfl,
      by decide +kernel, by decide +kernel⟩,
    ⟨tailed none (mid .drain .aborted 1 11), _, [], rfl, rfl, rfl⟩⟩

theorem witness_DrainCompletesOnEveryAnswer : (mid .drain .aborted 1 11).ses.phase = .drain := rfl

theorem witness_TransportFaultEndsTheSession : (mid .send .none 1 2).ses.phase = .send ∧
    (mid .wait .none 1 2).ses.phase = .wait ∧ (mid .drain .completed 3 0).ses.phase = .drain := by decide

/-- For the last clause: an operation that is none of the phase's step. -/
theorem witness_DisabledEngineStepIsRefused_fault : ∀ s, s = mid .wait .none 1 2 →
    ¬(s.ses.phase = .send ∧ (TransportOp.txWrite = .rxClear ∨ TransportOp.txWrite = .txWrite) ∨
      s.ses.phase = .wait ∧ TransportOp.txWrite = .rxRead ∨ s.ses.phase = .drain ∧ TransportOp.txWrite = .rxRead) := by
  rintro s rfl
  decide

theorem witness_DisabledEngineStepIsRefused : (mid .drain .aborted 1 11).busy = true ∧
    ((mid .idle .none 0 0).ses.phase ≠ .send ∧ (mid .idle .none 0 0).ses.phase ≠ .wait ∧
      (mid .idle .none 0 0).ses.phase ≠ .backoff ∧ (mid .idle .none 0 0).ses.phase ≠ .pace ∧
      (mid .idle .none 0 0).ses.phase ≠ .drain) ∧ (0x16 : Byte) ≠ 0x06 ∧ (0x16 : Byte) ≠ 0x15 := by decide

theorem witness_ResetPutsEveryRegisterAtItsValue :
    ((mid .wait .none 1 2).setEnv { Env.initial with resetPin := true }).env.resetPin = true := rfl

theorem witness_LoadWritesTheFile : (mid .wait .none 1 2).busy = true ∧ State.reset.busy = false ∧
    ((List.replicate 129 (0x1A : Byte)).length ≤ State.reset.par.fileCap ∧
      (List.replicate 129 (0x1A : Byte))[128]? = some 0x1A ∧ (List.replicate 129 (0x1A : Byte)).length ≤ 129) ∧
    2 ^ 39 - 129 < State.reset.par.fileCap ∧ 0 ≠ 1 ∧ 2 ^ 39 - 128 ≤ State.reset.par.fileCap ∧
    State.reset.par.fileCap < 2 ^ 39 - 127 := by decide +kernel

theorem witness_CfgWritesALegalValue : (mid .send .none 1 2).busy = true ∧ (mid .done .completed 3 0).busy = false := ⟨rfl, rfl⟩

theorem witness_HostWritesAreIgnoredWhileBusy : (mid .pace .none 2 0).busy = true := rfl

theorem witness_StatusIsReadWithoutSideEffect : 2 ^ 39 - 129 < State.reset.par.fileCap ∧ 255 < State.reset.par.trailCap.val ∧
    (HostReg.retryCeiling, 10) ∈ [(HostReg.fileLen, State.reset.cfg.fileLen),
      (.retryCeiling, State.reset.cfg.retryCeiling)] ∧
    (HostReg.backoffDiv, (70 : Rat)) ∈ [(HostReg.backoffDiv, State.reset.cfg.backoffDiv)] := by decide +kernel

/-- A frame written out (section 2.4), 132 bytes that are none, and both answers of the transport. -/
theorem witness_WriteSendsTheBytesOrFaults :
    [0x01, 0x2D, 0xD2] ++ List.replicate 128 0x00 ++ [0x00] = buildFrame 0x2D (fill 0x00) ∧
    (¬∃ idx p, List.replicate 132 0x55 = buildFrame idx p) ∧
    (answers true true State.reset).env.writes = true :: [] ∧
    (answers true false State.reset).env.writes = false :: [] := by
  refine ⟨by decide +kernel, ?_, rfl, rfl⟩
  rintro ⟨idx, p, h⟩
  have : some (0x55 : Byte) = some 0x01 := congrArg List.head? h
  exact absurd this (by decide)

theorem witness_ReadTakesThePendingBytes : (0 : Rat) ≤ 0 ∧
    (mid .idle .none 0 0).env.reads = some [0x06] :: [] ∧ (256 ≠ 1 ∧ (mid .idle .none 0 0).env.tails = some [0x15, 0x15] :: []) ∧
    (tailed none State.reset).env.tails = none :: [] ∧
    (State.reset.setEnv { Env.initial with reads := [none] }).env.reads = none :: [] ∧
    (∃ u, drawArrivals (readUse 1) ((mid .idle .none 0 0).askWait .read 0) = (some [0x06], u)) ∧
    (∃ u, drawArrivals (readUse 256) ((tailed none State.reset).askWait .read 0) = (none, u)) := by
  refine ⟨le_refl _, rfl, ⟨by decide, rfl⟩, rfl, rfl, ⟨_, rfl⟩, ⟨_, rfl⟩⟩

theorem witness_ClearEmptiesThePendingInput : (answers true true State.reset).env.clears = true :: [] ∧
    (answers false true State.reset).env.clears = false :: [] := ⟨rfl, rfl⟩

theorem witness_StepRunsTheOperationThatIsNext :
    (∃ (s : State) (rest : List Turn), s.env.resetPin = false ∧ s.env.agenda = .line [0x06] :: rest ∧ decode [0x06] = .ok .ack) ∧
    (∃ (s : State) (rest : List Turn), s.env.resetPin = false ∧ s.env.agenda = .line [0x06, 0x06] :: rest ∧
      decode [0x06, 0x06] = .error (.badLength 2)) :=
  ⟨⟨putOnLine [0x06] State.reset, [], rfl, rfl, rfl⟩, ⟨putOnLine [0x06, 0x06] State.reset, [], rfl, rfl, rfl⟩⟩

theorem witness_StepRunsTheOfferedOperation : ∃ (s : State) (rest : List Turn), s.env.resetPin = false ∧
    s.env.agenda = .offer (.hStatus .poll) :: rest :=
  ⟨State.reset.setEnv { Env.initial with agenda := [.offer (.hStatus .poll)] }, [], rfl, rfl⟩

theorem witness_EngineTakesTheEnabledStep : ∀ p : Phase, ∃ s : State, s.env.resetPin = false ∧ s.env.agenda = [] ∧ s.ses.phase = p :=
  fun p => ⟨mid p .none 0 0, rfl, rfl, rfl⟩

theorem witness_EngineTakesTheEnabledStep_turn : ∀ p : Phase, ∃ (s u : State) (rest : List Turn),
    s.env.resetPin = false ∧ s.env.agenda = .engine :: rest ∧ u = { s with env := { s.env with agenda := rest } } ∧
    s.ses.phase = p :=
  fun p => ⟨(mid p .none 0 0).setEnv { Env.initial with agenda := [.engine] }, _, [], rfl, rfl, rfl, rfl⟩

/-- The response read of a `WAIT`: a byte, and a fault. -/
theorem witness_EngineTakesTheEnabledStep_wait :
    (∃ t, rxRead .response 1 (mid .wait .none 1 2).cfg.respTimeout (mid .wait .none 1 2) = (some [0x06], t)) ∧
    (∃ s t : State, s.ses.phase = .wait ∧ s.env.agenda = [] ∧ rxRead .response 1 s.cfg.respTimeout s = (none, t)) :=
  ⟨⟨_, rfl⟩, ⟨(mid .wait .none 1 2).setEnv { Env.initial with reads := [none] }, _, rfl, rfl, rfl⟩⟩

/-- R9: the default parameters are legal. -/
theorem default_legal : Parameters.default.Legal := by
  constructor <;> decide +kernel

/-- So is the configuration after reset. -/
theorem reset_legal : Settings.reset.Legal .default := by
  constructor <;> decide +kernel

/-- A good state in the middle of a session: block 1, two negative signals so far. -/
theorem mid_good : (mid .send .none 1 2).Good := by
  refine ⟨default_legal, reset_legal, ?_, ?_⟩
  · constructor <;> decide +kernel
  · constructor <;> decide +kernel

/-- A good state in which no session runs. -/
theorem reset_good : State.reset.Good := by
  refine ⟨default_legal, reset_legal, ?_, ?_⟩
  · constructor <;> decide +kernel
  · constructor <;> decide +kernel

theorem witness_SourceStateFollowsPhaseAndOutcome : State.reset.Good ∧ State.reset.ses.phase = .idle ∧
    (mid .done .completed 3 0).ses.outcome = .completed ∧ (mid .drain .aborted 1 11).ses.outcome = .aborted ∧
    (mid .done .fault 1 2).ses.outcome = .fault ∧ (mid .pace .none 2 0).ses.phase = .pace ∧
    (mid .wait .none 1 2).ses.phase = .wait := ⟨reset_good, rfl, rfl, rfl, rfl, rfl, rfl⟩

theorem witness_EngineNeverStops : ∃ s : State, s.Good ∧ s.env.resetPin = false ∧ s.env.agenda = [] ∧ s.busy = true :=
  ⟨_, mid_good, rfl, rfl, rfl⟩

theorem witness_StepKeepsGood : ∃ s t : State, s.Good ∧ step s = .next t ∧ t.ses.phase = .wait :=
  ⟨_, _, mid_good, rfl, rfl⟩

/-- The history of `mid .send .none 1 2`: block 0 acknowledged at once, block 1 answered by two noise bytes. -/
def midHistory : List Event :=
  [.write (buildFrame 1 (fill 0x00)), .read .ack, .write (buildFrame 2 hello), .read .timeout,
   .write (buildFrame 2 hello), .read (.other 0x43)]

theorem witness_StepKeepsHistory : ∃ s t : State, s.Good ∧ s.HistoryOk ∧ step s = .next t := by
  refine ⟨{ mid .send .none 1 2 with hist := midHistory }, _, ?_, ?_, rfl⟩
  · refine ⟨default_legal, reset_legal, ?_, ?_⟩
    · constructor <;> decide +kernel
    · constructor <;> decide +kernel
  · constructor
    · decide +kernel
    · decide +kernel
    · decide +kernel
    · decide +kernel
    · rintro - p h
      obtain rfl : hello = p := Option.some.inj h
      rfl
    · intro f h
      simp only [midHistory, List.mem_cons, Event.write.injEq, reduceCtorEq, List.not_mem_nil, or_false, false_or] at h
      obtain rfl | rfl | rfl := h
      · exact ⟨0, _, rfl, by decide, rfl⟩
      · exact ⟨1, _, rfl, by decide, rfl⟩
      · exact ⟨1, _, rfl, by decide, rfl⟩
    · decide +kernel

theorem witness_CursorMovesOnlyOnAck : ∃ t, exec .ack (mid .wait .none 1 2) = .next t ∧ t.ses.cursor ≠ 1 :=
  ⟨_, rfl, by decide +kernel⟩

theorem witness_SessionIsLockedWhileBusy : ∃ t, (mid .wait .none 1 2).busy = true ∧ Instr.nak ≠ .hReset ∧
    exec .nak (mid .wait .none 1 2) = .next t :=
  ⟨_, rfl, by decide, rfl⟩

theorem witness_ResultsStayUntilStartOrReset : ∃ t, (mid .done .aborted 1 11).ses.phase = .done ∧
    exec (.hCfg (.retryCeiling 3)) (mid .done .aborted 1 11) = .next t ∧ t.cfg.retryCeiling = 3 :=
  ⟨_, rfl, rfl, by decide +kernel⟩

theorem witness_OnlyTransportFaultsGoWrong : ∃ t, exec (.eFault .rxRead) (mid .wait .none 1 2) = .next t ∧ t.goneWrong ∧
    ¬(mid .wait .none 1 2).goneWrong :=
  ⟨_, rfl, rfl, by simp [State.goneWrong, mid, Session.reset]⟩

theorem witness_OnlyFramesGoOut : ∃ t, exec .eSend (mid .send .none 1 2) = .next t ∧
    t.sent = [buildFrame (widx 1) hello] :=
  ⟨_, rfl, by decide +kernel⟩

/-- One frame sent, and another about to be. -/
theorem witness_EverythingSentIsAFrame : ∃ s t : State, s.sent = [buildFrame 0x01 (fill 0x00)] ∧
    (∀ f ∈ s.sent, ∃ idx p, f = buildFrame idx p) ∧ step s = .next t ∧ t.sent.length = 2 :=
  ⟨(mid .send .none 1 2).setSent [buildFrame 0x01 (fill 0x00)], _, rfl,
    fun _ hf => ⟨0x01, fill 0x00, List.mem_singleton.1 hf⟩, rfl, rfl⟩

theorem witness_ElapsedNeverFalls : ∃ t, exec .ePace (mid .pace .none 2 0) = .next t ∧ Instr.ePace ≠ .eStart ∧
    Instr.ePace ≠ .hStart ∧ Instr.ePace ≠ .hReset ∧ (mid .pace .none 2 0).env.elapses = 5 :: [7] ∧
    Instr.ePace.isEngineStep = true ∧
    (mid .pace .none 2 0).ses.elapsed < 2 ^ (mid .pace .none 2 0).par.elapsedBits ∧ t.ses.elapsed = 5 :=
  ⟨_, rfl, by decide, by decide, by decide, rfl, rfl, by decide +kernel, by decide +kernel⟩

/-- For the other clauses: the answer of a response read, and an operation that takes no time. -/
theorem witness_ElapsedNeverFalls_others :
    (∃ t, exec .nak (mid .wait .none 1 2) = .next t ∧ Instr.nak.isControl = true ∧ t.ses.elapsed = 5) ∧
    (∃ t, exec .nak (mid .send .none 1 2) = .next t ∧ ¬(Instr.nak.isEngineStep = true ∨
      Instr.nak.isControl = true ∧ (mid .send .none 1 2).ses.phase = .wait)) :=
  ⟨⟨_, rfl, rfl, by decide +kernel⟩, ⟨_, rfl, by decide⟩⟩

theorem witness_EveryOperationHasAMeaning : (Instr.rxRead 256 0).wellFormed State.reset.par = true := by decide +kernel

theorem witness_EverySessionEnds : (mid .send .none 1 2).Good ∧ (mid .send .none 1 2).busy = true ∧
    (mid .send .none 1 2).env.resetPin = false ∧ (mid .send .none 1 2).env.agenda = [] := ⟨mid_good, rfl, rfl, rfl⟩

/-- Program P3: one block, a timeout, a noise byte, then `ACK`. -/
def p3 : State :=
  { State.reset with
    env := { Env.initial with clears := [true, true, true], writes := [true, true, true],
                              reads := [some [], some [0x43], some [0x06]], tails := [some []],
                              agenda := [.offer .hStart] } }

theorem witness_SessionAgreesWithRun : p3.Good ∧ p3.busy = false ∧ p3.env.resetPin = false ∧
    p3.env.agenda = [.offer .hStart] ∧
    (∀ b, Response.other b ∈ [Response.timeout, .other 0x43, .ack] → b ≠ 0x06 ∧ b ≠ 0x15) ∧
    runSession (nblkOf p3.cfg.fileLen) p3.cfg.retryCeiling [.timeout, .other 0x43, .ack] =
      some ⟨.completed, 1, 0, 3⟩ ∧
    p3.env.clears = List.replicate 3 true ++ [] ∧ p3.env.writes = List.replicate 3 true ++ [] ∧
    p3.env.reads = (([Response.timeout, .other 0x43, .ack].take 3).map fun a => some a.answer) ++ [] ∧
    p3.env.tails = some [] :: [] := by
  refine ⟨⟨default_legal, reset_legal, ?_, ?_⟩, rfl, rfl, rfl, ?_, by decide +kernel, rfl, rfl, rfl, rfl⟩
  · constructor <;> decide +kernel
  · constructor <;> decide +kernel
  · intro b hb
    simp only [List.mem_cons, reduceCtorEq, Response.other.injEq, List.not_mem_nil, or_false, false_or] at hb
    subst hb
    decide

theorem witness_RunHasTheSourceProperties : 1 ≤ 3 ∧ 1 ≤ 10 := by decide

end Sys2Proof.Tests
end

section
/-! The flags (R33) and the fields of `STATUS` (R34), each said once for every state, and O37 assembled from them. -/

namespace Sys2Proof.Machine

/-! ### The flags -/

/-- R33, `BUSY`: one of the five phases in which a session runs. -/
theorem Phase.busy_iff (p : Phase) :
    p.busy = true ↔ p = .send ∨ p = .wait ∨ p = .backoff ∨ p = .pace ∨ p = .drain := by
  cases p <;> decide

/-- R34 leaves the eighth value of the field `PHASE` without a meaning. -/
theorem Phase.code_ne_seven (p : Phase) : p.code ≠ 7 := by
  cases p <;> decide

namespace State

variable (s : State)

@[simp] theorem done_iff : s.done = true ↔ s.ses.phase = .done := beq_iff_eq

@[simp] theorem fCompleted_iff : s.fCompleted = true ↔ s.ses.phase = .done ∧ s.ses.outcome = .completed := by
  simp [fCompleted]

@[simp] theorem fAborted_iff : s.fAborted = true ↔ s.ses.phase = .done ∧ s.ses.outcome = .aborted := by
  simp [fAborted]

@[simp] theorem fFault_iff : s.fFault = true ↔ s.ses.phase = .done ∧ s.ses.outcome = .fault := by
  simp [fFault]

/-- No session runs in the phase `DONE`, so `BUSY` and `DONE` exclude each other. -/
theorem not_busy_and_done : ¬(s.busy = true ∧ s.done = true) := by
  rintro ⟨hbusy, hdone⟩
  have hphase : s.ses.phase = .done := s.done_iff.mp hdone
  rw [busy, hphase] at hbusy
  exact absurd hbusy (by decide)

/-! ### The fields of `STATUS`

Each field is cut out of the concatenation of R34: the parts below its place and above its end are dropped one by one.
`simp only` does this before `simp` runs, whose `Nat.reduceAdd` would hide that 16 is the sum of the fields' widths. -/

theorem statusWord_busy : s.statusWord.getLsbD 0 = s.busy := by
  simp only [statusWord, BitVec.getLsbD_append]
  simp

theorem statusWord_done : s.statusWord.getLsbD 1 = s.done := by
  simp only [statusWord, BitVec.getLsbD_append]
  simp

theorem statusWord_outcome : s.statusWord.extractLsb' 2 2 = s.ses.outcome.code := by
  simp only [statusWord, BitVec.extractLsb'_append_eq_ite]
  simp

theorem statusWord_phase : s.statusWord.extractLsb' 4 3 = s.ses.phase.code := by
  simp only [statusWord, BitVec.extractLsb'_append_eq_ite]
  simp

theorem statusWord_bit_seven : s.statusWord.getLsbD 7 = false := by
  simp only [statusWord, BitVec.getLsbD_append]
  simp

theorem statusWord_cause : s.statusWord.extractLsb' 8 3 = s.ses.cause.code := by
  simp only [statusWord, BitVec.extractLsb'_append_eq_ite]
  simp

theorem statusWord_reserved : s.statusWord.extractLsb' 11 5 = 0 := by
  simp only [statusWord, BitVec.extractLsb'_append_eq_ite]
  simp

theorem reset_statusWord : State.reset.statusWord = 0 := by decide

/-- Writing the settings back as they are changes nothing. -/
@[simp] theorem setCfg_cfg_self : s.setCfg s.cfg = s := rfl

end State

/-- The meaning of `H_CFG` (R203). -/
theorem exec_hCfg (c : CfgWrite) (s : State) : exec (.hCfg c) s = execHCfg c s := rfl

/-- R34: a host write to `STATUS` is ignored, while a session runs (R38) and otherwise. -/
theorem exec_hCfg_status (v : BitVec 16) (s : State) : exec (.hCfg (.status v)) s = .next s := by
  rw [exec_hCfg, execHCfg]
  split
  case isTrue => rfl
  case isFalse => simp [applyCfg]

/-- Settles O37: the flags by the phases, `STATUS` field by field, the codes by evaluation. -/
theorem statusWordHoldsTheFields : Obligations.StatusWordHoldsTheFields := fun s =>
  ⟨s.ses.phase.busy_iff, s.done_iff, s.fCompleted_iff, s.fAborted_iff, s.fFault_iff, s.not_busy_and_done,
    s.statusWord_busy, s.statusWord_done, s.statusWord_outcome, s.statusWord_phase, s.statusWord_bit_seven,
    s.statusWord_cause, s.statusWord_reserved, fun v => exec_hCfg_status v s, by decide, by decide, by decide,
    Phase.code_ne_seven, rfl, State.reset_statusWord, by decide⟩

end Sys2Proof.Machine
end

section
/-! The classes of the response read (R96): what each decodes from, the step it takes in `WAIT`, the one effect of the
negative three, and O4 assembled from them. -/

namespace Sys2Proof

/-- R96: the bytes of class `OTHER`, written out. -/
theorem isNoise_iff (b : Byte) : isNoise b = true ↔ b ≠ 0x06 ∧ b ≠ 0x15 := by
  simp [isNoise]

/-- R96: every byte of class `OTHER` decodes to itself in that class, all eight bits kept. -/
theorem decode_of_isNoise {b : Byte} (hb : isNoise b = true) : decode [b] = .ok (.other b) := by
  obtain ⟨hack, hnak⟩ := (isNoise_iff b).mp hb
  rw [decode, decodeControl, if_neg hack, if_neg hnak]

namespace Machine

/-! ### The step of each class -/

/-- The item of the line that is an answer of class `r` (R96). -/
def Response.lineItem : Response → Instr
  | .ack => .ack
  | .nak => .nak
  | .other b => .other b
  | .timeout => .timeout

/-- The engine step that the class `r` selects (R158 to R161). -/
def Response.engineStep : Response → Instr
  | .ack => .eRespAck
  | .nak => .eRespNak
  | .other b => .eRespOther b
  | .timeout => .eRespTimeout

variable {s : State} {r : Response}

/-- In `WAIT` an item of the line and the `E_RESP` step of its class both take the response. -/
theorem exec_response (hwait : s.ses.phase = .wait) (hwf : r.lineItem.wellFormed s.par = true) :
    exec r.lineItem s = .next (takeResponse r s) ∧ exec r.engineStep s = .next (takeResponse r s) := by
  cases r with
  | ack => exact ⟨if_pos hwait, if_pos hwait⟩
  | nak => exact ⟨if_pos hwait, if_pos hwait⟩
  | other b => exact ⟨(if_pos hwf).trans (if_pos hwait), (if_pos hwf).trans (if_pos hwait)⟩
  | timeout => exact ⟨if_pos hwait, if_pos hwait⟩

/-- R96: in `WAIT` an item of the line selects the `E_RESP` step of its class. -/
theorem exec_lineItem_eq (hwait : s.ses.phase = .wait) (hwf : r.lineItem.wellFormed s.par = true) :
    exec r.lineItem s = exec r.engineStep s := by
  obtain ⟨hitem, hstep⟩ := exec_response hwait hwf
  rw [hitem, hstep]

/-! ### The one effect of the negative classes -/

@[simp] theorem elapse_hist (s : State) : (elapse s).hist = s.hist := by
  obtain ⟨x, e, h, -⟩ := elapse_cases s
  rw [h, State.setSes_hist, State.setEnv_hist]

@[simp] theorem negative_hist (s : State) : (negative s).hist = s.hist := by
  obtain ⟨-, h⟩ | ⟨-, h⟩ := negative_cases s <;> rw [h, State.setSes_hist]

/-- R162: `NEGATIVE()` does not look at the history. -/
theorem negative_emit (es : List Event) (s : State) : negative (s.emit es) = (negative s).emit es := by
  rw [negative, negative, apply_ite (State.emit es)]
  rfl

/-- R159 to R162: a negative signal is one effect, whatever its class, and then the event of its class. -/
theorem takeResponse_of_ne_ack (hr : r ≠ .ack) (s : State) :
    takeResponse r s = (negative (elapse s)).emit [.read r] := by
  obtain ⟨u, rfl, ⟨hack, -⟩ | ⟨-, h⟩⟩ := takeResponse_cases r s
  · exact absurd hack hr
  · rw [h, negative_emit]

/-- The three negative steps lead to one state, the event apart: that of `E_RESP_NAK`, say. -/
theorem exec_engineStep_of_ne_ack (hwait : s.ses.phase = .wait) (hr : r ≠ .ack)
    (hwf : r.lineItem.wellFormed s.par = true) :
    exec r.engineStep s = .next { takeResponse .nak s with hist := s.hist ++ [.read r] } := by
  rw [(exec_response hwait hwf).2, takeResponse_of_ne_ack hr, takeResponse_of_ne_ack (r := .nak) (by decide),
    State.emit, State.emit, negative_hist, elapse_hist]

/-- Settles O4: the decoder case by case, the step each item selects, and the one effect of the negative steps. -/
theorem responseBytesAreClassified : Obligations.ResponseBytesAreClassified := by
  refine ⟨fun r _ => ⟨?_, ?_, ?_, ?_⟩, fun s hwait => ?_⟩
  · rintro rfl; rfl
  · rintro rfl; rfl
  · rintro b rfl hack hnak
    exact decode_of_isNoise ((isNoise_iff b).mpr ⟨hack, hnak⟩)
  · rintro rfl; rfl
  · refine ⟨exec_lineItem_eq (r := .ack) hwait rfl, exec_lineItem_eq (r := .nak) hwait rfl,
      exec_lineItem_eq (r := .timeout) hwait rfl, takeResponse .nak s, (exec_response (r := .nak) hwait rfl).2,
      exec_engineStep_of_ne_ack (r := .timeout) hwait (by decide) rfl, fun b hack hnak => ?_⟩
    have hb : isNoise b = true := (isNoise_iff b).mpr ⟨hack, hnak⟩
    exact ⟨exec_lineItem_eq (r := .other b) hwait hb, exec_engineStep_of_ne_ack (r := .other b) hwait nofun hb⟩

end Machine

end Sys2Proof
end

section
/-! The Framer's functions (R120 to R132): what each operation answers, what the pure functions are, and O5, O6, O9,
O11, O13 and O15 assembled from them. -/

namespace Sys2Proof.Machine

/-! ### The answers of the operations -/

/-- R121, for a group of at most 128 bytes. -/
theorem exec_pad {g : List Byte} (hg : g.length ≤ 128) (s : State) :
    exec (.pad g) s = .next (s.respond (.block (padBlock g hg))) := dif_pos hg

/-- R122, for a length of at most `FILE_CAP`. -/
theorem exec_nblkOf {n : Nat} {s : State} (hn : n ≤ s.par.fileCap) :
    exec (.nblkOf n) s = .next (s.respond (.count (nblkOf n))) := if_pos (decide_eq_true hn)

/-- R126, for a cursor value. -/
theorem exec_widx {i : Nat} {s : State} (hi : i < 2 ^ s.par.cursorBits) :
    exec (.widx i) s = .next (s.respond (.byte (widx i))) := if_pos (decide_eq_true hi)

/-- R128. -/
theorem exec_checksum (p : Block) (s : State) :
    exec (.checksum p) s = .next (s.respond (.byte (checksum p))) := rfl

/-- R130. -/
theorem exec_buildFrame (idx : Byte) (p : Block) (s : State) :
    exec (.buildFrame idx p) s = .next (s.respond (.frame (buildFrame idx p))) := rfl

/-- R132, the raw port given a payload. -/
theorem exec_buildFrameRaw_of_length_eq {bs : List Byte} (hbs : bs.length = 128) (idx : Nat) (s : State) :
    exec (.buildFrameRaw idx bs) s = .next (s.respond (.frame (buildFrame (narrowIndex idx) ⟨bs, hbs⟩))) := dif_pos hbs

/-- R132, the raw port given anything else. -/
theorem exec_buildFrameRaw_of_length_ne {bs : List Byte} (hbs : bs.length ≠ 128) (idx : Nat) (s : State) :
    exec (.buildFrameRaw idx bs) s = .fault (.invalidPayloadSize bs.length) := dif_neg hbs

/-! ### The block count -/

@[simp] theorem nblkOf_zero : nblkOf 0 = 1 := rfl

/-- R122: `ceil(N / 128)`, as the block count whose last block is needed and enough. -/
theorem nblkOf_ceil {n : Nat} (hn : 0 < n) : 128 * (nblkOf n - 1) < n ∧ n ≤ 128 * nblkOf n := by
  have hceil : nblkOf n = (n + 127) / 128 := if_neg hn.ne'
  omega

/-! ### The wire index -/

/-- R126: the index is below 256, so no bit of it is lost. -/
@[simp] theorem widx_toNat (i : Nat) : (widx i).toNat = i % 255 + 1 := by
  rw [widx, BitVec.toNat_ofNat]
  omega

theorem widx_ne_zero (i : Nat) : widx i ≠ 0 := by
  intro h
  have hzero : i % 255 + 1 = 0 := by rw [← widx_toNat, h]; rfl
  omega

theorem widx_eq_255_iff (i : Nat) : widx i = 255 ↔ i % 255 = 254 := by
  rw [← BitVec.toNat_inj, widx_toNat]
  change i % 255 + 1 = 255 ↔ i % 255 = 254
  omega

/-- R126: the counter that goes from 255 to 1 and otherwise up by one. -/
theorem widx_succ (i : Nat) : widx (i + 1) = if widx i = 255 then 1 else widx i + 1 := by
  split
  case isTrue hlast =>
    rw [widx_eq_255_iff] at hlast
    have hwrap : (i + 1) % 255 = 0 := by omega
    rw [widx, hwrap]
    rfl
  case isFalse hlast =>
    rw [widx_eq_255_iff] at hlast
    have hnext : (i + 1) % 255 = i % 255 + 1 := by omega
    rw [widx, hnext, BitVec.ofNat_add]
    rfl

/-! ### The checksum -/

/-- R128: 128 bytes of at most 255. -/
theorem payloadSum_le (p : Block) : payloadSum p ≤ 32640 := by
  have hbyte : ∀ x ∈ p.bytes.map BitVec.toNat, x ≤ 255 := by
    intro x hx
    obtain ⟨b, -, rfl⟩ := List.mem_map.mp hx
    exact Nat.le_of_lt_succ b.isLt
  have hsum := List.sum_le_card_nsmul _ 255 hbyte
  rwa [List.length_map, p.len] at hsum

/-- R128: the sum modulo 256. -/
theorem checksum_toNat (p : Block) : (checksum p).toNat = (p.bytes.map BitVec.toNat).sum % 256 :=
  BitVec.toNat_ofNat _ _

/-- An 8-bit accumulator that starts at `acc` and wraps adds the exact sum modulo 256. -/
theorem foldl_add_eq_add_ofNat_sum (bs : List Byte) (acc : Byte) :
    bs.foldl (fun acc b => acc + b) acc = acc + BitVec.ofNat 8 (bs.map BitVec.toNat).sum := by
  induction bs generalizing acc with
  | nil => simp
  | cons b bs ih => rw [List.foldl_cons, ih, List.map_cons, List.sum_cons, BitVec.ofNat_add, BitVec.ofNat_toNat,
      BitVec.setWidth_eq, BitVec.add_assoc]

/-- R128: the carry may be discarded at every byte instead of once at the end. -/
theorem checksum_eq_foldl (p : Block) : checksum p = p.bytes.foldl (fun acc b => acc + b) 0 := by
  rw [foldl_add_eq_add_ofNat_sum, BitVec.ofNat_eq_ofNat, BitVec.zero_add]
  rfl

/-! ### The bytes of a frame -/

/-- R92: the complement by subtraction never borrows. -/
theorem complement_toNat (idx : Byte) : (255 - idx : Byte).toNat = 255 - idx.toNat :=
  BitVec.toNat_sub_of_le (BitVec.le_def.mpr (Nat.le_of_lt_succ idx.isLt))

/-- R92: the complement by subtraction is the bitwise one. -/
theorem complement_eq_not (idx : Byte) : 255 - idx = ~~~idx := by
  apply BitVec.eq_of_toNat_eq
  rw [complement_toNat, BitVec.toNat_not]

/-- R92: the complement by exclusive or. -/
theorem complement_eq_xor (idx : Byte) : 255 - idx = idx ^^^ 0xFF :=
  (complement_eq_not idx).trans BitVec.xor_allOnes.symm

/-- R130: the frame as its three leading bytes and what follows them. -/
theorem buildFrame_eq_cons (idx : Byte) (p : Block) :
    buildFrame idx p = 0x01 :: idx :: (255 - idx) :: (p.bytes ++ [checksum p]) := rfl

/-- R90: bytes 3 to 130 of a frame are its payload. -/
theorem buildFrame_getElem?_payload (idx : Byte) (p : Block) {j : Nat} (hj : j < 128) :
    (buildFrame idx p)[3 + j]? = p.bytes[j]? := by
  rw [buildFrame_eq_cons, Nat.add_comm]
  exact List.getElem?_append_left (hj.trans_eq p.len.symm)

/-- R90: byte 131 of a frame is its checksum. -/
theorem buildFrame_getElem?_checksum (idx : Byte) (p : Block) : (buildFrame idx p)[131]? = some (checksum p) := by
  have hlast : (p.bytes ++ [checksum p])[p.bytes.length]? = some (checksum p) := List.getElem?_concat_length
  rwa [p.len] at hlast

/-- R90, R130: the encoder of the item `FRAME` and `BUILD_FRAME` make the same bytes. -/
theorem encode_frame (idx : Byte) (p : Block) : encode (.frame idx p) = some (buildFrame idx p) :=
  congrArg some (frameLayout_eq_buildFrame idx p)

/-! ### The obligations -/

/-- Settles O5: the block of `PAD` is the padded group by definition. -/
theorem padFillsTheFinalGroup : Obligations.PadFillsTheFinalGroup :=
  fun g s hg => ⟨padBlock g hg, rfl, exec_pad hg s⟩

/-- Settles O6: the count is the one of `nblkOf_ceil`. -/
theorem blockCountIsTheCeiling : Obligations.BlockCountIsTheCeiling := fun n s hn => by
  refine ⟨nblkOf n, exec_nblkOf hn, ?_, nblkOf_ceil⟩
  rintro rfl
  exact nblkOf_zero

/-- Settles O9: the value of the index, and the counter by its step and its start. -/
theorem wireIndexIsOneTo255 : Obligations.WireIndexIsOneTo255 :=
  ⟨fun i _ hi => ⟨widx i, exec_widx hi, widx_toNat i⟩, fun i => ⟨widx_ne_zero i, widx_succ i⟩, rfl⟩

/-- Settles O11: the checksum as a remainder, the bound of the sum, and the accumulator. -/
theorem checksumIsTheSumModulo256 : Obligations.ChecksumIsTheSumModulo256 := fun p s =>
  ⟨checksum p, exec_checksum p s, checksum_toNat p, payloadSum_le p, checksum_eq_foldl p⟩

/-- Settles O13: the frame byte by byte. -/
theorem frameBytesStandInPlace : Obligations.FrameBytesStandInPlace := fun idx p s =>
  ⟨buildFrame idx p, exec_buildFrame idx p s, encode_frame idx p, buildFrame_length idx p, rfl, rfl,
    ⟨255 - idx, rfl, complement_toNat idx, complement_eq_not idx, complement_eq_xor idx⟩,
    fun _ hj => buildFrame_getElem?_payload idx p hj,
    ⟨checksum p, buildFrame_getElem?_checksum idx p, checksum_toNat p⟩⟩

/-- Settles O15: the raw port with a payload and without one. -/
theorem rawFrameNeeds128Bytes : Obligations.RawFrameNeeds128Bytes := fun idx _ s =>
  ⟨fun hbs => exec_buildFrameRaw_of_length_eq hbs idx s, fun hbs => exec_buildFrameRaw_of_length_ne hbs idx s⟩

end Sys2Proof.Machine
end

section
/-! Time passing over an engine step (R28, R150), the sleeps of the engine (R170, R172), and O24 and O26 assembled from
what they change and what they leave unchanged. -/

namespace Sys2Proof.Machine

variable {s t : State}

/-! ### The frames of an engine step -/

/-- A byte of `FILE` is read from the memory, or is a free value of the memory's epoch (R39). -/
theorem fileByte_congr (hfile : t.file = s.file) (hepoch : t.env.fileEpoch = s.env.fileEpoch) (a : Nat) :
    t.fileByte a = s.fileByte a := by
  rw [State.fileByte, State.fileByte, hfile, hepoch]

/-- A byte of `TRAIL` depends on `TRAIL_LEN` too (R41). -/
theorem sameTrail_of (htrail : t.trail = s.trail) (hlen : t.ses.trailLen = s.ses.trailLen)
    (hepoch : t.env.trailEpoch = s.env.trailEpoch) : SameTrail s t := by
  intro k
  rw [State.trailByte, State.trailByte, htrail, hlen, hepoch]

/-- The session registers are outside what `EngineKeeps` compares. -/
theorem EngineKeeps.setSes (h : EngineKeeps s t) (x : Session) : EngineKeeps s (t.setSes x) := h

/-- Of the session registers the reads of `TRAIL` depend on `TRAIL_LEN` only. -/
theorem SameTrail.setSes (h : SameTrail s t) {x : Session} (hlen : x.trailLen = t.ses.trailLen) :
    SameTrail s (t.setSes x) := fun k =>
  (sameTrail_of (s := t) (t := t.setSes x) rfl hlen rfl k).trans (h k)

theorem SessionIs.setPhase {x : Session} (h : SessionIs s t x) (p : Phase) :
    SessionIs s (t.setPhase p) { x with phase := p } := by
  obtain ⟨hses, helapsed⟩ := h
  exact ⟨congrArg (fun y => { y with phase := p }) hses, helapsed⟩

theorem SessionIs.setOutcome {x : Session} (h : SessionIs s t x) (o : SessionOutcome) :
    SessionIs s (t.setSes { t.ses with outcome := o }) { x with outcome := o } := by
  obtain ⟨hses, helapsed⟩ := h
  exact ⟨congrArg (fun y => { y with outcome := o }) hses, helapsed⟩

theorem SessionIs.cursor_eq {x : Session} (h : SessionIs s t x) : t.ses.cursor = x.cursor := by rw [h.1]

theorem SessionIs.nblk_eq {x : Session} (h : SessionIs s t x) : t.ses.nblk = x.nblk := by rw [h.1]

/-! ### Time passing -/

/-- R28, R150: of the session registers time changes `ELAPSED` only. -/
theorem elapse_sessionIs (s : State) : SessionIs s (elapse s) s.ses := by
  obtain ⟨x, e, h, hle, -⟩ := elapse_cases s
  rw [h]
  exact ⟨rfl, hle⟩

theorem elapse_engineKeeps (s : State) : EngineKeeps s (elapse s) := by
  obtain ⟨x, e, h, -, -, hdraws, -⟩ := elapse_cases s
  rw [h]
  exact ⟨rfl, rfl, rfl, ⟨fileByte_congr rfl hdraws.fileEpoch, fun _ => rfl⟩, rfl, hdraws.agenda, hdraws.resetPin⟩

theorem elapse_sameTrail (s : State) : SameTrail s (elapse s) := by
  obtain ⟨x, e, h, -, -, hdraws, -⟩ := elapse_cases s
  rw [h]
  exact sameTrail_of rfl rfl hdraws.trailEpoch

theorem elapse_sameLine (s : State) : SameLine s (elapse s) := by
  obtain ⟨x, e, h, -⟩ := elapse_cases s
  rw [h]
  exact ⟨rfl, rfl⟩

@[simp] theorem elapse_waits (s : State) : (elapse s).waits = s.waits := by
  obtain ⟨x, e, h, -⟩ := elapse_cases s
  rw [h, State.setSes_waits, State.setEnv_waits]

/-! ### Sleeping -/

/-- What a step of the engine that sleeps once does outside the session registers: the event, the wait asked of the time
base, and nothing else. -/
structure SleepsOnce (k : SleepKind) (d : Rat) (s t : State) : Prop where
  hist : t.hist = s.hist ++ [.sleep k]
  waits : t.waits = s.waits ++ [⟨.sleep k, d⟩]
  keeps : EngineKeeps s t
  trail : SameTrail s t
  line : SameLine s t

theorem elapse_sleepFor_sleepsOnce (k : SleepKind) (d : Rat) (s : State) :
    SleepsOnce k d s ((elapse s).sleepFor k d) where
  hist := by rw [State.sleepFor_hist, elapse_hist]
  waits := by rw [State.sleepFor_waits, elapse_waits]
  keeps := elapse_engineKeeps s
  trail := elapse_sameTrail s
  line := elapse_sameLine s

theorem elapse_sleepFor_sessionIs (k : SleepKind) (d : Rat) (s : State) :
    SessionIs s ((elapse s).sleepFor k d) s.ses := elapse_sessionIs s

variable {k : SleepKind} {d : Rat}

/-- What the step then does to the session registers changes nothing of it, as long as `TRAIL_LEN` stays. -/
theorem SleepsOnce.setSes (h : SleepsOnce k d s t) {x : Session} (hlen : x.trailLen = t.ses.trailLen) :
    SleepsOnce k d s (t.setSes x) where
  hist := h.hist
  waits := h.waits
  keeps := h.keeps.setSes x
  trail := h.trail.setSes hlen
  line := h.line

theorem SleepsOnce.setPhase (h : SleepsOnce k d s t) (p : Phase) : SleepsOnce k d s (t.setPhase p) :=
  h.setSes (x := { t.ses with phase := p }) rfl

/-! ### The end of the pacing wait -/

theorem SleepsOnce.paceEffect (h : SleepsOnce k d s t) : SleepsOnce k d s (paceEffect t) := by
  obtain ⟨-, hlast⟩ | ⟨-, hmore⟩ := paceEffect_cases t
  · rw [hlast]
    exact h.setSes rfl
  · rw [hmore]
    exact h.setPhase .send

/-- R172, the last block acknowledged. -/
theorem SessionIs.paceEffect_of_last (h : SessionIs s t s.ses) (hlast : s.ses.cursor = s.ses.nblk) :
    SessionIs s (paceEffect t) { s.ses with outcome := .completed, phase := .drain } := by
  have ht : t.ses.cursor = t.ses.nblk := by rw [h.cursor_eq, h.nblk_eq, hlast]
  rw [paceEffect, if_pos ht]
  exact (h.setOutcome .completed).setPhase .drain

/-- R172, a block still to send. -/
theorem SessionIs.paceEffect_of_more (h : SessionIs s t s.ses) (hmore : s.ses.cursor ≠ s.ses.nblk) :
    SessionIs s (paceEffect t) { s.ses with phase := .send } := by
  have ht : t.ses.cursor ≠ t.ses.nblk := by rwa [h.cursor_eq, h.nblk_eq]
  rw [paceEffect, if_neg ht]
  exact h.setPhase .send

/-! ### The two steps -/

/-- R170, in its phase. -/
theorem exec_eBackoff (u : Rand) (hphase : s.ses.phase = .backoff) :
    exec (.eBackoff u) s = .next (((elapse s).sleepFor .backoff (backoffDelay u.val s)).setPhase .send) := if_pos hphase

/-- R172, in its phase. -/
theorem exec_ePace (hphase : s.ses.phase = .pace) :
    exec .ePace s = .next (paceEffect ((elapse s).sleepFor .pace s.cfg.paceDelay)) := if_pos hphase

/-- Settles O24: the one sleep of the step, then `PHASE` only. -/
theorem backoffWaitsThenSendsAgain : Obligations.BackoffWaitsThenSendsAgain := fun u s hphase => by
  have hsleep := (elapse_sleepFor_sleepsOnce .backoff (backoffDelay u.val s) s).setPhase .send
  exact ⟨_, exec_eBackoff u hphase, (elapse_sleepFor_sessionIs _ _ s).setPhase .send, hsleep.hist, hsleep.waits,
    hsleep.keeps, hsleep.trail, hsleep.line⟩

/-- Settles O26: the one sleep of the step, then the session registers by whether a block is left. -/
theorem paceSendsTheNextBlockOrCompletes : Obligations.PaceSendsTheNextBlockOrCompletes := fun s hphase => by
  have hses := elapse_sleepFor_sessionIs .pace s.cfg.paceDelay s
  have hsleep := (elapse_sleepFor_sleepsOnce .pace s.cfg.paceDelay s).paceEffect
  exact ⟨_, exec_ePace hphase, hses.paceEffect_of_last, hses.paceEffect_of_more, hsleep.hist, hsleep.waits,
    hsleep.keeps, hsleep.trail, hsleep.line⟩

end Sys2Proof.Machine
end

section
/-! `H_CFG` (R203): ignored while a session runs, and otherwise the settings with one register changed. O34 assembled
from the two cases. -/

namespace Sys2Proof.Machine

/-- Settings that are new only for a legal value give a state that is new only then. -/
theorem State.setCfg_ite (s : State) (legal : Prop) [Decidable legal] (x : Settings) :
    s.setCfg (if legal then x else s.cfg) = if legal then s.setCfg x else s :=
  apply_ite s.setCfg legal x s.cfg

/-- R38, R203: a register write while a session runs. -/
theorem exec_hCfg_of_busy {s : State} (hbusy : s.busy = true) (c : CfgWrite) : exec (.hCfg c) s = .next s :=
  if_pos hbusy

/-- R203: a register write while no session runs. -/
theorem exec_hCfg_of_not_busy {s : State} (hbusy : s.busy = false) (c : CfgWrite) :
    exec (.hCfg c) s = .next (s.setCfg (applyCfg s.par c s.cfg)) :=
  if_neg (Bool.eq_false_iff.mp hbusy)

/-- R203 for one register: a write whose effect on the settings is `x` if the value is legal, and none otherwise. -/
theorem exec_hCfg_of_applyCfg_eq_ite {s : State} (hbusy : s.busy = false) {c : CfgWrite} {legal : Prop}
    [Decidable legal] {x : Settings} (happly : applyCfg s.par c s.cfg = if legal then x else s.cfg) :
    exec (.hCfg c) s = .next (if legal then s.setCfg x else s) := by
  rw [exec_hCfg_of_not_busy hbusy, happly, s.setCfg_ite]

/-- Settles O34: ignored while a session runs; otherwise, each register has its own test of a legal value in
`applyCfg`. -/
theorem cfgWritesALegalValue : Obligations.CfgWritesALegalValue := fun _ =>
  ⟨exec_hCfg_of_busy, fun hbusy => by
    refine ⟨?_, ?_, ?_, ?_, ?_, ?_⟩ <;> exact fun _ => exec_hCfg_of_applyCfg_eq_ite hbusy rfl⟩

end Sys2Proof.Machine
end

section
/-! The decoder and the encoder of the items of the line (R90, R96): what each decodes from, and O1, O2 and O3 assembled
from one law for the frames and one for the answers of the response read. -/

namespace Sys2Proof

/-! ### Frames -/

/-- R90: a frame's payload and checksum are cut out of what follows its third byte. -/
theorem decodeFrame_append (hdr idx cmpl : Byte) (p : Block) (cks : Byte) :
    decodeFrame hdr idx cmpl (p.bytes ++ [cks]) = decodeFields hdr idx cmpl p cks := by
  have htake : (p.bytes ++ [cks]).take 128 = p.bytes := List.take_left' p.len
  have hdrop : (p.bytes ++ [cks]).drop 128 = [cks] := List.drop_left' p.len
  simp only [decodeFrame, htake, hdrop, p.len, dite_true]

/-- R98: what follows the third byte of a frame is 128 bytes and one more. -/
theorem eq_append_of_decodeFrame_eq_ok {hdr idx cmpl : Byte} {rest : List Byte} {i : Instr}
    (h : decodeFrame hdr idx cmpl rest = .ok i) : ∃ (p : Block) (cks : Byte), rest = p.bytes ++ [cks] := by
  unfold decodeFrame at h
  split at h
  case isTrue hlen =>
    split at h
    case h_1 cks hdrop => exact ⟨⟨rest.take 128, hlen⟩, cks, by rw [← hdrop, List.take_append_drop]⟩
    case h_2 => cases h
  case isFalse => cases h

/-- R90, R92: the fields are those of a frame when header, complement and checksum are right. -/
theorem decodeFields_eq_ok_iff {hdr idx cmpl cks : Byte} {p : Block} {i : Instr} :
    decodeFields hdr idx cmpl p cks = .ok i ↔
      hdr = Config.SOH ∧ cmpl = 255 - idx ∧ cks = Machine.checksum p ∧ i = .frame idx p := by
  unfold decodeFields
  constructor
  · intro h
    split at h
    · cases h
    · split at h
      · cases h
      · split at h <;> cases h
        exact ⟨not_not.mp ‹_›, not_not.mp ‹_›, not_not.mp ‹_›, rfl⟩
  · rintro ⟨rfl, rfl, rfl, rfl⟩
    simp

/-- R90: every frame decodes to the item with its operands. -/
theorem decode_buildFrame (idx : Byte) (p : Block) : decode (Machine.buildFrame idx p) = .ok (.frame idx p) :=
  (decodeFrame_append 0x01 idx (255 - idx) p (Machine.checksum p)).trans
    (decodeFields_eq_ok_iff.mpr ⟨rfl, rfl, rfl, rfl⟩)

/-- R98, R99: what decodes beyond two bytes is a frame. -/
theorem eq_frame_of_decode_eq_ok {hdr idx cmpl : Byte} {rest : List Byte} {i : Instr}
    (h : decode (hdr :: idx :: cmpl :: rest) = .ok i) :
    ∃ p, i = .frame idx p ∧ hdr :: idx :: cmpl :: rest = Machine.buildFrame idx p := by
  obtain ⟨p, cks, rfl⟩ := eq_append_of_decodeFrame_eq_ok h
  have hfields : decodeFields hdr idx cmpl p cks = .ok i := (decodeFrame_append ..).symm.trans h
  obtain ⟨rfl, rfl, rfl, rfl⟩ := decodeFields_eq_ok_iff.mp hfields
  exact ⟨p, rfl, rfl⟩

/-! ### The answers of the response read -/

open Machine

/-- R96: the answer of each class decodes to the class's item. -/
theorem decode_answer {q : Parameters} {r : Response} (hwf : r.lineItem.wellFormed q = true) :
    decode r.answer = .ok r.lineItem := by
  cases r with
  | ack => rfl
  | nak => rfl
  | other b => exact decode_of_isNoise hwf
  | timeout => rfl

/-- R96: no byte, and any single byte, is the answer of a class. -/
theorem exists_answer_eq (q : Parameters) {bs : List Byte} (hlen : bs.length ≤ 1) :
    ∃ r : Response, r.lineItem.wellFormed q = true ∧ r.answer = bs := by
  match bs, hlen with
  | [], _ => exact ⟨.timeout, rfl, rfl⟩
  | [b], _ =>
    by_cases hack : b = 0x06
    · exact ⟨.ack, rfl, by rw [hack]; rfl⟩
    · by_cases hnak : b = 0x15
      · exact ⟨.nak, rfl, by rw [hnak]; rfl⟩
      · exact ⟨.other b, (isNoise_iff b).mpr ⟨hack, hnak⟩, rfl⟩

/-- R96: the encoding of a class's item is the class's answer. -/
theorem encode_lineItem (r : Response) : encode r.lineItem = some r.answer := by
  cases r <;> rfl

/-- R112: the operations with an encoding are the frames and the answers. -/
theorem encode_eq_some_cases {i : Instr} {bs : List Byte} (h : encode i = some bs) :
    (∃ idx p, i = .frame idx p ∧ bs = buildFrame idx p) ∨ ∃ r : Response, i = r.lineItem ∧ bs = r.answer := by
  cases i
  case frame idx p => exact .inl ⟨idx, p, rfl, Option.some.inj (h.symm.trans (encode_frame idx p))⟩
  case ack => exact .inr ⟨.ack, rfl, (Option.some.inj h).symm⟩
  case nak => exact .inr ⟨.nak, rfl, (Option.some.inj h).symm⟩
  case other b => exact .inr ⟨.other b, rfl, (Option.some.inj h).symm⟩
  case timeout => exact .inr ⟨.timeout, rfl, (Option.some.inj h).symm⟩
  all_goals cases h

/-! ### The obligations -/

/-- Settles O1: a frame by its fields, an answer by its class. -/
theorem encodedItemDecodesToItself : Obligations.EncodedItemDecodesToItself := by
  intro q i bs hwf henc
  obtain ⟨idx, p, rfl, rfl⟩ | ⟨r, rfl, rfl⟩ := encode_eq_some_cases henc
  · exact decode_buildFrame idx p
  · exact decode_answer hwf

/-- Settles O2: by the number of bytes, an answer of the response read, nothing, or a frame. -/
theorem decodedBytesAreTheEncoding : Obligations.DecodedBytesAreTheEncoding := by
  have hanswer : ∀ (q : Parameters) (bs : List Byte) (i : Instr), bs.length ≤ 1 → decode bs = .ok i →
      i.wellFormed q = true ∧ encode i = some bs := by
    intro q bs i hlen h
    obtain ⟨r, hwf, rfl⟩ := exists_answer_eq q hlen
    obtain rfl : r.lineItem = i := Except.ok.inj ((decode_answer hwf).symm.trans h)
    exact ⟨hwf, encode_lineItem r⟩
  intro q bs i h
  match bs with
  | [] => exact hanswer q _ i (Nat.zero_le 1) h
  | [_] => exact hanswer q _ i le_rfl h
  | [_, _] => cases h
  | _ :: _ :: _ :: _ =>
    obtain ⟨p, rfl, hbs⟩ := eq_frame_of_decode_eq_ok h
    exact ⟨rfl, (encode_frame _ p).trans (congrArg some hbs.symm)⟩

/-- A block of pad bytes only: 128 times 1A is 3328, which is 0 modulo 256. -/
theorem checksum_padBlock_nil : checksum (padBlock [] (Nat.zero_le _)) = 0 := by decide +kernel

/-- Settles O3: the answers by evaluation, the frame as the one of the index 2D and a block of pad bytes. -/
theorem sampleBytesDecode : Obligations.SampleBytesDecode := by
  have hframe := decode_buildFrame 0x2D (padBlock [] (Nat.zero_le _))
  rw [buildFrame_eq_cons, checksum_padBlock_nil] at hframe
  exact ⟨rfl, rfl, rfl, rfl, rfl, padBlock [] (Nat.zero_le _), rfl, hframe⟩

end Sys2Proof
end

section
/-! Everything an engine step can do, said once in terms of the state before it: time passes, inputs are drawn, and one
of nine effects follows. The whole-machine rules and the invariants are read off from it. -/

namespace Sys2Proof.Machine

variable {s t : State} {i : Instr}

/-! ### Time passing -/

/-- `s` with `ELAPSED` at `x` and the inputs `e` still to come. -/
abbrev State.timed (s : State) (x : Nat) (e : Env) : State := (s.setEnv e).setSes { s.ses with elapsed := x }

/-- `x` and `e` are `ELAPSED` and the inputs to come once time has passed over an engine step from `s` (R28, R150). -/
structure TimePasses (s : State) (x : Nat) (e : Env) : Prop where
  le : s.ses.elapsed ≤ x
  lt : s.ses.elapsed < 2 ^ s.par.elapsedBits → x < 2 ^ s.par.elapsedBits
  amount : ∀ d ds, s.env.elapses = d :: ds → s.ses.elapsed < 2 ^ s.par.elapsedBits →
    x = min (s.ses.elapsed + d) (2 ^ s.par.elapsedBits - 1)
  draws : s.env.Draws e

theorem TimePasses.draw {x : Nat} {e e' : Env} (h : TimePasses s x e) (hdraws : e.Draws e') : TimePasses s x e' :=
  ⟨h.le, h.lt, h.amount, h.draws.trans hdraws⟩

/-- The amount added to `ELAPSED` is the next one given. -/
theorem elapse_elapsed_of_elapses {d : Nat} {ds : List Nat} (h : s.env.elapses = d :: ds) :
    (elapse s).ses.elapsed = s.elapsedPlus d := by
  simp only [elapse, drawElapse, h]
  rfl

theorem elapse_eq_timed (s : State) : ∃ x e, elapse s = s.timed x e ∧ TimePasses s x e := by
  obtain ⟨x, e, helapse, hle, hlt, hdraws, -⟩ := elapse_cases s
  refine ⟨x, e, helapse, hle, hlt, fun d ds hd hwidth => ?_, hdraws⟩
  have hx : x = s.elapsedPlus d := by rw [← elapse_elapsed_of_elapses hd, helapse]; rfl
  rw [hx, elapsedPlus_eq d s hwidth]

/-! ### The nine effects -/

/-- The events other than a write of a frame and the response to it. -/
def Event.isAside : Event → Bool
  | .clear => true
  | .write _ => false
  | .read _ => false
  | .sleep _ => true
  | .drain _ => true
  | .fault _ => true

/-- R155, an attempt that succeeds: the frame `f` written after a clear. -/
def frameSent (f : List Byte) (s : State) : State :=
  ((((s.setPending []).emit [.clear]).setSent (s.sent ++ [f])).emit [.write f]).setPhase .wait

/-- What an engine step from `s` does, with the items of the line that select one in `WAIT`. -/
inductive EngineEffect (s : State) : Instr → State → Prop where
  | fault (x : Nat) (e : Env) (op : TransportOp) (evs : List Event) (ps : List Byte) (ws : List Wait) {i : Instr} :
      TimePasses s x e → s.busy = true → (∀ ev ∈ evs, ev.isAside = true) →
      (i = .eSend ∨ i = .eDrain ∨ i = .eFault op) →
      EngineEffect s i (takeFault op { s.timed x e with hist := s.hist ++ evs, pending := ps, waits := ws })
  | send (x : Nat) (e : Env) (p : Block) : TimePasses s x e → s.ses.phase = .send → s.block? s.ses.cursor = some p →
      EngineEffect s .eSend (frameSent (buildFrame (widx s.ses.cursor) p) (s.timed x e))
  | ack (x : Nat) (e : Env) {i : Instr} : TimePasses s x e → s.ses.phase = .wait → (i = .ack ∨ i = .eRespAck) →
      EngineEffect s i (advance ((s.timed x e).emit [.read .ack]))
  | abort (x : Nat) (e : Env) (r : Response) {i : Instr} : TimePasses s x e → s.ses.phase = .wait → r ≠ .ack →
      (i = r.lineItem ∨ i = r.engineStep) → s.cfg.retryCeiling < s.ses.rpt + 1 →
      EngineEffect s i (((s.timed x e).emit [.read r]).setSes { s.ses with
        elapsed := x, rpt := s.ses.rpt + 1, outcome := .aborted, cause := .retryExhausted, phase := .drain })
  | retry (x : Nat) (e : Env) (r : Response) {i : Instr} : TimePasses s x e → s.ses.phase = .wait → r ≠ .ack →
      (i = r.lineItem ∨ i = r.engineStep) → s.ses.rpt + 1 ≤ s.cfg.retryCeiling →
      EngineEffect s i (((s.timed x e).emit [.read r]).setSes { s.ses with
        elapsed := x, rpt := s.ses.rpt + 1, phase := .backoff })
  | backoff (x : Nat) (e : Env) (u : Rand) : TimePasses s x e → s.ses.phase = .backoff →
      EngineEffect s (.eBackoff u) (((s.timed x e).sleepFor .backoff (backoffDelay u.val s)).setPhase .send)
  | complete (x : Nat) (e : Env) : TimePasses s x e → s.ses.phase = .pace → s.ses.cursor = s.ses.nblk →
      EngineEffect s .ePace (((s.timed x e).sleepFor .pace s.cfg.paceDelay).setSes { s.ses with
        elapsed := x, outcome := .completed, phase := .drain })
  | nextBlock (x : Nat) (e : Env) : TimePasses s x e → s.ses.phase = .pace → s.ses.cursor ≠ s.ses.nblk →
      EngineEffect s .ePace (((s.timed x e).sleepFor .pace s.cfg.paceDelay).setPhase .send)
  | drain (x : Nat) (e : Env) (bs : List Byte) : TimePasses s x e → s.ses.phase = .drain →
      EngineEffect s .eDrain (storeTail ((s.pending ++ bs).take s.par.trailCap)
        ((((s.timed x e).sleepFor .final s.cfg.finalWait).askWait .read 0).setPending
          ((s.pending ++ bs).drop s.par.trailCap)))

/-- R178: a fault comes in a running session, after events other than a write and a response. -/
theorem beforeFault_eq_some {op : TransportOp} {u v : State} (h : beforeFault op u = some v) :
    u.busy = true ∧ ∃ evs ps ws, (∀ ev ∈ evs, ev.isAside = true) ∧
      v = { u with hist := u.hist ++ evs, pending := ps, waits := ws } := by
  unfold beforeFault at h
  unfold State.busy
  split at h <;> cases h <;> rename_i hphase <;> rw [hphase]
  · exact ⟨rfl, [], _, _, by decide, by rw [List.append_nil]⟩
  · exact ⟨rfl, [.clear], [], _, by decide, rfl⟩
  · exact ⟨rfl, [], _, _, by decide, by rw [List.append_nil]⟩
  · exact ⟨rfl, [.sleep .final], _, _, by decide, rfl⟩

theorem EngineEffect.of_beforeFault {op : TransportOp} {x : Nat} {e : Env} {v : State} (htime : TimePasses s x e)
    (h : beforeFault op (s.timed x e) = some v) (hi : i = .eSend ∨ i = .eDrain ∨ i = .eFault op) :
    EngineEffect s i (takeFault op v) := by
  obtain ⟨hbusy, evs, ps, ws, hevs, rfl⟩ := beforeFault_eq_some h
  exact .fault x e op evs ps ws htime hbusy hevs hi

/-- R158 to R161: a response takes the effect of its class. -/
theorem EngineEffect.of_response (r : Response) (hphase : s.ses.phase = .wait)
    (hi : i = r.lineItem ∨ i = r.engineStep) : EngineEffect s i (takeResponse r s) := by
  obtain ⟨x, e, helapse, htime⟩ := elapse_eq_timed s
  obtain ⟨u, rfl, ⟨rfl, h⟩ | ⟨hr, h⟩⟩ := takeResponse_cases r s <;> rw [h, helapse]
  · exact .ack x e htime hphase hi
  · obtain ⟨hceiling, hneg⟩ | ⟨hceiling, hneg⟩ := negative_cases ((s.timed x e).emit [.read r]) <;> rw [hneg]
    · exact .abort x e r htime hphase hr hi hceiling
    · exact .retry x e r htime hphase hr hi hceiling

/-- R155, R178. -/
theorem EngineEffect.of_send {p : Block} (hphase : s.ses.phase = .send) (hp : s.block? s.ses.cursor = some p) :
    EngineEffect s .eSend (sendAttempt p (elapse s)) := by
  obtain ⟨x, e, helapse, htime⟩ := elapse_eq_timed s
  rw [helapse]
  obtain ⟨e', hdraws, -, -, h | h | h⟩ := sendAttempt_cases p (s.timed x e) <;> rw [h]
  · exact of_beforeFault (htime.draw hdraws) (by simp [beforeFault, hphase]; rfl) (.inl rfl)
  · exact of_beforeFault (htime.draw hdraws) (by simp [beforeFault, hphase]; rfl) (.inl rfl)
  · exact .send x e' p (htime.draw hdraws) hphase hp

/-- R175, R178. -/
theorem EngineEffect.of_drain (hphase : s.ses.phase = .drain) : EngineEffect s .eDrain (drainTail (elapse s)) := by
  obtain ⟨x, e, helapse, htime⟩ := elapse_eq_timed s
  rw [helapse]
  obtain ⟨e', hdraws, h | ⟨bs, h⟩⟩ := drainTail_cases (s.timed x e) <;> rw [h]
  · exact of_beforeFault (htime.draw hdraws) (by simp [beforeFault, hphase]; rfl) (.inr (.inl rfl))
  · exact .drain x e' bs (htime.draw hdraws) hphase

/-- Every engine step has one of the effects. -/
theorem EngineMove.effect (h : EngineMove s i t) : EngineEffect s i t := by
  cases h with
  | send p hphase hp => exact .of_send hphase hp
  | respAck hphase => exact .of_response .ack hphase (.inr rfl)
  | respNak hphase => exact .of_response .nak hphase (.inr rfl)
  | respOther b hphase => exact .of_response (.other b) hphase (.inr rfl)
  | respTimeout hphase => exact .of_response .timeout hphase (.inr rfl)
  | ack hphase => exact .of_response .ack hphase (.inl rfl)
  | nak hphase => exact .of_response .nak hphase (.inl rfl)
  | other b hphase => exact .of_response (.other b) hphase (.inl rfl)
  | timeout hphase => exact .of_response .timeout hphase (.inl rfl)
  | backoff u hphase =>
    obtain ⟨x, e, helapse, htime⟩ := elapse_eq_timed s
    rw [helapse]
    exact .backoff x e u htime hphase
  | pace hphase =>
    obtain ⟨x, e, helapse, htime⟩ := elapse_eq_timed s
    rw [helapse]
    obtain ⟨hlast, hpace⟩ | ⟨hmore, hpace⟩ := paceEffect_cases ((s.timed x e).sleepFor .pace s.cfg.paceDelay) <;>
      rw [hpace]
    · exact .complete x e htime hphase hlast
    · exact .nextBlock x e htime hphase hmore
  | drain hphase => exact .of_drain hphase
  | fault op v hv =>
    obtain ⟨x, e, helapse, htime⟩ := elapse_eq_timed s
    rw [helapse] at hv
    exact .of_beforeFault htime hv (.inr (.inr rfl))

/-- An engine step, and an item of the line in `WAIT`, has one of the effects whenever it answers a next state. -/
theorem exec_engineStep_effect (h : exec i s = .next t)
    (hi : i.isEngineStep = true ∨ i.isControl = true ∧ s.ses.phase = .wait) : EngineEffect s i t := by
  have hrefused : ∀ {p : Prop} [Decidable p] {o : Host.Outcome State Fault Refusal} {r : Refusal},
      (if p then o else .refused r) = .next t → p ∧ o = .next t := by
    intro p _ o r hif
    split at hif
    case isTrue hp => exact ⟨hp, hif⟩
    case isFalse => cases hif
  have hresponse : ∀ r : Response, i = r.lineItem ∨ i = r.engineStep → r.lineItem.wellFormed s.par = true →
      s.ses.phase = .wait → EngineEffect s i t := by
    intro r hir hwf hphase
    obtain ⟨hitem, hstep⟩ := exec_response hphase hwf
    obtain rfl : takeResponse r s = t := by
      obtain rfl | rfl := hir
      · exact Host.Outcome.next.inj (hitem.symm.trans h)
      · exact Host.Outcome.next.inj (hstep.symm.trans h)
    exact .of_response r hphase hir
  cases i with
  | eSend =>
    obtain ⟨hphase, h⟩ := hrefused h
    split at h
    · cases h; exact .of_send hphase ‹_›
    · cases h
  | eRespAck => exact hresponse .ack (.inr rfl) rfl (hrefused h).1
  | eRespNak => exact hresponse .nak (.inr rfl) rfl (hrefused h).1
  | eRespOther b =>
    obtain ⟨hb, h⟩ := hrefused h
    exact hresponse (.other b) (.inr rfl) hb (hrefused h).1
  | eRespTimeout => exact hresponse .timeout (.inr rfl) rfl (hrefused h).1
  | eBackoff u =>
    obtain ⟨hphase, h⟩ := hrefused h
    cases h
    exact (EngineMove.backoff u hphase).effect
  | ePace =>
    obtain ⟨hphase, h⟩ := hrefused h
    cases h
    exact (EngineMove.pace hphase).effect
  | eDrain =>
    obtain ⟨hphase, h⟩ := hrefused h
    cases h
    exact .of_drain hphase
  | eFault op =>
    replace h : execEFault op s = .next t := h
    unfold execEFault at h
    split at h <;> cases h
    exact (EngineMove.fault op _ ‹_›).effect
  | ack => exact hresponse .ack (.inl rfl) rfl (hi.resolve_left nofun).2
  | nak => exact hresponse .nak (.inl rfl) rfl (hi.resolve_left nofun).2
  | other b => exact hresponse (.other b) (.inl rfl) (hrefused h).1 (hi.resolve_left nofun).2
  | timeout => exact hresponse .timeout (.inl rfl) rfl (hi.resolve_left nofun).2
  | _ => exact absurd hi (by simp [Instr.isEngineStep, Instr.isControl])

/-- Everything an operation that answers a next state can do. -/
theorem exec_effect_cases (h : exec i s = .next t) :
    Quiet i s t ∨ ((i = .eStart ∨ i = .hStart) ∧ s.busy = false ∧ t = startSession s) ∨
    (i = .hReset ∧ t = resetBlock s) ∨ EngineEffect s i t := by
  obtain h | h | h | h := exec_cases h
  · exact .inl h
  · exact .inr (.inl h)
  · exact .inr (.inr (.inl h))
  · exact .inr (.inr (.inr h.effect))

/-! ### What the effects have in common -/

/-- What every engine step leaves alone of the block, with the turns to come. -/
structure EngineFrame (s t : State) : Prop where
  par : t.par = s.par
  cfg : t.cfg = s.cfg
  lockedCeiling : t.lockedCeiling = s.lockedCeiling
  file : t.file = s.file
  blk : t.blk = s.blk
  nblk : t.ses.nblk = s.ses.nblk
  fileEpoch : t.env.fileEpoch = s.env.fileEpoch
  agenda : t.env.agenda = s.env.agenda
  resetPin : t.env.resetPin = s.env.resetPin

/-- An engine step belongs to a running session. -/
theorem EngineEffect.busy (h : EngineEffect s i t) : s.busy = true := by
  have hrunning : ∀ p : Phase, p.busy = true → s.ses.phase = p → s.busy = true := fun _ hp hphase =>
    (congrArg Phase.busy hphase).trans hp
  cases h with
  | fault x e op evs ps ws htime hbusy => exact hbusy
  | send x e p htime hphase => exact hrunning _ rfl hphase
  | ack x e htime hphase => exact hrunning _ rfl hphase
  | abort x e r htime hphase => exact hrunning _ rfl hphase
  | retry x e r htime hphase => exact hrunning _ rfl hphase
  | backoff x e u htime hphase => exact hrunning _ rfl hphase
  | complete x e htime hphase => exact hrunning _ rfl hphase
  | nextBlock x e htime hphase => exact hrunning _ rfl hphase
  | drain x e bs htime hphase => exact hrunning _ rfl hphase

/-- Every engine step lets time pass, and beside that keeps the frame. -/
theorem EngineEffect.timePasses_and_frame (h : EngineEffect s i t) :
    (∃ e, TimePasses s t.ses.elapsed e) ∧ EngineFrame s t := by
  have hboth : ∀ {x : Nat} {e : Env}, TimePasses s x e → (∃ e, TimePasses s x e) ∧ EngineFrame s (s.timed x e) :=
    fun h => ⟨⟨_, h⟩, rfl, rfl, rfl, rfl, rfl, rfl, h.draws.fileEpoch, h.draws.agenda, h.draws.resetPin⟩
  cases h with
  | fault x e op evs ps ws htime => exact (hboth htime).imp id fun k => { k with }
  | send x e p htime => exact (hboth htime).imp id fun k => { k with }
  | ack x e htime => exact (hboth htime).imp id fun k => { k with }
  | abort x e r htime => exact (hboth htime).imp id fun k => { k with }
  | retry x e r htime => exact (hboth htime).imp id fun k => { k with }
  | backoff x e u htime => exact (hboth htime).imp id fun k => { k with }
  | complete x e htime => exact (hboth htime).imp id fun k => { k with }
  | nextBlock x e htime => exact (hboth htime).imp id fun k => { k with }
  | drain x e bs htime => exact (hboth htime).imp id fun k => { k with }

theorem EngineEffect.timePasses (h : EngineEffect s i t) : ∃ e, TimePasses s t.ses.elapsed e :=
  h.timePasses_and_frame.1

theorem EngineEffect.frame (h : EngineEffect s i t) : EngineFrame s t := h.timePasses_and_frame.2

end Sys2Proof.Machine
end

section
/-! The good states (R24, R31, R206): reset makes one, and every operation keeps them. O46 and O47. -/

namespace Sys2Proof.Machine

variable {s t : State} {i : Instr}

/-! ### The parts of a good state -/

/-- What `State.Good` looks at. -/
theorem State.Good.of_eq (h : s.Good) (hpar : t.par = s.par) (hses : t.ses = s.ses) (hcfg : t.cfg = s.cfg)
    (hlocked : t.lockedCeiling = s.lockedCeiling) (hfile : t.file = s.file) (hblk : t.blk = s.blk)
    (htrail : t.trail = s.trail) : t.Good := by
  cases s
  cases t
  cases hpar; cases hses; cases hcfg; cases hlocked; cases hfile; cases hblk; cases htrail
  obtain ⟨hp, hs, hx, hm⟩ := h
  exact ⟨hp, hs, { hx with }, { hm with }⟩

theorem Chosen.good (h : Chosen s t) (hs : s.Good) : t.Good :=
  hs.of_eq h.par h.ses h.cfg h.lockedCeiling h.file h.blk h.trail

theorem Phase.busy_ne_idle {p : Phase} (h : p.busy = true) : p ≠ .idle := by
  rintro rfl
  cases h

/-! ### The session registers after an engine step -/

/-- A step that goes on with the session: the outcome stays `NONE`. -/
theorem State.SessionOk.goOn {p : Phase} {c r x : Nat} {e : Env} {hs : List Event} {ps : List Byte}
    {ss : List (List Byte)} {ws : List Wait} (h : s.SessionOk) (hs_busy : s.busy = true)
    (hs_open : s.ses.phase.open = true) (hp_open : p.open = true)
    (hx : x < 2 ^ s.par.elapsedBits) (hc : c ≤ s.ses.nblk) (hr : r ≤ s.cfg.retryCeiling)
    (hattempt : p.attempting = true → c < s.ses.nblk) (hbackoff : p = .backoff → 1 ≤ r)
    (hpace : p = .pace → r = 0 ∧ 1 ≤ c) :
    State.SessionOk { s with
      ses := { s.ses with phase := p, cursor := c, rpt := r, elapsed := x }
      env := e, hist := hs, pending := ps, sent := ss, waits := ws } := by
  have hnone : s.ses.outcome = .none := h.outcome_none.mpr hs_open
  exact { h with
    nblk_pos := fun _ => h.nblk_pos (Phase.busy_ne_idle hs_busy)
    blk_length := fun _ => h.blk_length (Phase.busy_ne_idle hs_busy)
    cursor_le := hc
    outcome_none := by simp [hnone, hp_open]
    drain_outcome := by simp [hnone]
    completed_cursor := by simp [hnone]
    aborted_cursor := by simp [hnone]
    attempting_cursor := hattempt
    attempting_rpt := fun _ => hr
    backoff_rpt := hbackoff
    pace := hpace
    completed_rpt := by simp [hnone]
    aborted_rpt := by simp [hnone]
    rpt_le := by rw [h.ceiling_locked hs_busy]; exact hr.trans (Nat.le_succ _)
    ceiling_locked := fun _ => h.ceiling_locked hs_busy
    elapsed_lt := hx
    trailLen_busy := fun _ => h.trailLen_busy hs_busy }

/-- R178: `FAULT` ends the session. -/
theorem State.SessionOk.fault {x : Nat} {e : Env} {op : TransportOp} {evs : List Event} {ps : List Byte}
    {ws : List Wait} (h : s.SessionOk) (hbusy : s.busy = true) (hx : x < 2 ^ s.par.elapsedBits) :
    (takeFault op { s.timed x e with hist := s.hist ++ evs, pending := ps, waits := ws }).SessionOk :=
  { h with
    nblk_pos := fun _ => h.nblk_pos (Phase.busy_ne_idle hbusy)
    blk_length := fun _ => h.blk_length (Phase.busy_ne_idle hbusy)
    outcome_none := by simp [Phase.open]
    drain_outcome := nofun
    cause_none := by simp
    cause_aborted := nofun
    cause_fault := fun _ => rfl
    completed_cursor := nofun
    aborted_cursor := nofun
    attempting_cursor := nofun
    attempting_rpt := nofun
    backoff_rpt := nofun
    pace := nofun
    completed_rpt := nofun
    aborted_rpt := nofun
    ceiling_locked := nofun
    elapsed_lt := hx
    trailLen_busy := nofun
    trailLen_fault := fun _ => h.trailLen_busy hbusy }

/-- R162: the abort, with `RPT` one above the ceiling. -/
theorem State.SessionOk.abort {x : Nat} {e : Env} {evs : List Event} (h : s.SessionOk) (hphase : s.ses.phase = .wait)
    (hx : x < 2 ^ s.par.elapsedBits) (hceiling : s.cfg.retryCeiling < s.ses.rpt + 1) :
    (((s.timed x e).emit evs).setSes { s.ses with
      elapsed := x, rpt := s.ses.rpt + 1, outcome := .aborted, cause := .retryExhausted
      phase := .drain }).SessionOk := by
  have hbusy : s.busy = true := congrArg Phase.busy hphase
  have hattempt : s.ses.phase.attempting = true := congrArg Phase.attempting hphase
  have hrpt : s.ses.rpt + 1 = s.lockedCeiling + 1 := by
    have hle := h.attempting_rpt hattempt
    have hlocked := h.ceiling_locked hbusy
    omega
  exact { h with
    nblk_pos := fun _ => h.nblk_pos (Phase.busy_ne_idle hbusy)
    blk_length := fun _ => h.blk_length (Phase.busy_ne_idle hbusy)
    outcome_none := by simp [Phase.open]
    drain_outcome := by simp
    cause_none := by simp
    cause_aborted := fun _ => rfl
    cause_fault := nofun
    completed_cursor := nofun
    aborted_cursor := fun _ => h.attempting_cursor hattempt
    attempting_cursor := nofun
    attempting_rpt := nofun
    backoff_rpt := nofun
    pace := nofun
    completed_rpt := nofun
    aborted_rpt := fun _ => hrpt
    rpt_le := hrpt.le
    ceiling_locked := fun _ => h.ceiling_locked hbusy
    elapsed_lt := hx
    trailLen_busy := fun _ => h.trailLen_busy hbusy
    trailLen_fault := nofun }

/-- R172: the completion, with `CURSOR` at `NBLK`. -/
theorem State.SessionOk.complete {x : Nat} {e : Env} {d : Rat} (h : s.SessionOk) (hphase : s.ses.phase = .pace)
    (hx : x < 2 ^ s.par.elapsedBits) (hlast : s.ses.cursor = s.ses.nblk) :
    (((s.timed x e).sleepFor .pace d).setSes { s.ses with
      elapsed := x, outcome := .completed, phase := .drain }).SessionOk := by
  have hbusy : s.busy = true := congrArg Phase.busy hphase
  have hnone : s.ses.outcome = .none := h.outcome_none.mpr (congrArg Phase.open hphase)
  exact { h with
    nblk_pos := fun _ => h.nblk_pos (Phase.busy_ne_idle hbusy)
    blk_length := fun _ => h.blk_length (Phase.busy_ne_idle hbusy)
    outcome_none := by simp [Phase.open]
    drain_outcome := by simp
    cause_none := fun _ => h.cause_none (.inl hnone)
    cause_aborted := nofun
    cause_fault := nofun
    completed_cursor := fun _ => hlast
    aborted_cursor := nofun
    attempting_cursor := nofun
    attempting_rpt := nofun
    backoff_rpt := nofun
    pace := nofun
    completed_rpt := fun _ => (h.pace hphase).1
    aborted_rpt := nofun
    ceiling_locked := fun _ => h.ceiling_locked hbusy
    elapsed_lt := hx
    trailLen_busy := fun _ => h.trailLen_busy hbusy
    trailLen_fault := nofun }

/-- A group of at most `TRAIL_CAP` bytes has a length that fits `TRAIL_LEN` (R9, R32). -/
theorem trailLen_toNat {cap : Fin 65536} {tl : List Byte} (h : tl.length ≤ cap) :
    (BitVec.ofNat 16 tl.length).toNat = tl.length := by
  rw [BitVec.toNat_ofNat]
  omega

/-- R175: the end of the session, with the outcome it had in `DRAIN`. -/
theorem State.SessionOk.drain {x : Nat} {e : Env} {tl ps : List Byte} {d : Rat} (h : s.SessionOk)
    (hphase : s.ses.phase = .drain) (hx : x < 2 ^ s.par.elapsedBits) (htl : tl.length ≤ s.par.trailCap) :
    (storeTail tl ((((s.timed x e).sleepFor .final d).askWait .read 0).setPending ps)).SessionOk := by
  have hbusy : s.busy = true := congrArg Phase.busy hphase
  have hended : s.ses.outcome ≠ .none := fun hnone =>
    absurd ((congrArg Phase.open hphase).symm.trans (h.outcome_none.mp hnone)) (by decide)
  exact { h with
    nblk_pos := fun _ => h.nblk_pos (Phase.busy_ne_idle hbusy)
    blk_length := fun _ => h.blk_length (Phase.busy_ne_idle hbusy)
    outcome_none := iff_of_false hended nofun
    drain_outcome := nofun
    attempting_cursor := nofun
    attempting_rpt := nofun
    backoff_rpt := nofun
    pace := nofun
    ceiling_locked := nofun
    elapsed_lt := hx
    trailLen_le := (trailLen_toNat htl).trans_le htl
    trailLen_busy := nofun
    trailLen_fault := fun hfault => absurd hfault (h.drain_outcome hphase) }

theorem EngineEffect.sessionOk (heff : EngineEffect s i t) (h : s.SessionOk) : t.SessionOk := by
  have hcursor_le := h.cursor_le
  cases heff with
  | fault x e op evs ps ws htime hbusy hevs hi => exact h.fault hbusy (htime.lt h.elapsed_lt)
  | send x e p htime hphase hp =>
    have hcursor := h.attempting_cursor (congrArg Phase.attempting hphase)
    exact h.goOn (congrArg Phase.busy hphase) (congrArg Phase.open hphase) rfl (htime.lt h.elapsed_lt)
      hcursor_le (h.attempting_rpt (congrArg Phase.attempting hphase)) (fun _ => hcursor) nofun nofun
  | ack x e htime hphase hi =>
    have hcursor := h.attempting_cursor (congrArg Phase.attempting hphase)
    exact h.goOn (congrArg Phase.busy hphase) (congrArg Phase.open hphase) rfl (htime.lt h.elapsed_lt)
      hcursor (Nat.zero_le _) nofun nofun (fun _ => ⟨rfl, Nat.le_add_left 1 _⟩)
  | abort x e r htime hphase hr hi hceiling => exact h.abort hphase (htime.lt h.elapsed_lt) hceiling
  | retry x e r htime hphase hr hi hceiling =>
    have hcursor := h.attempting_cursor (congrArg Phase.attempting hphase)
    exact h.goOn (congrArg Phase.busy hphase) (congrArg Phase.open hphase) rfl (htime.lt h.elapsed_lt)
      hcursor_le hceiling (fun _ => hcursor) (fun _ => Nat.le_add_left 1 _) nofun
  | backoff x e u htime hphase =>
    have hcursor := h.attempting_cursor (congrArg Phase.attempting hphase)
    exact h.goOn (congrArg Phase.busy hphase) (congrArg Phase.open hphase) rfl (htime.lt h.elapsed_lt)
      hcursor_le (h.attempting_rpt (congrArg Phase.attempting hphase)) (fun _ => hcursor) nofun nofun
  | complete x e htime hphase hlast => exact h.complete hphase (htime.lt h.elapsed_lt) hlast
  | nextBlock x e htime hphase hmore =>
    obtain ⟨hrpt, -⟩ := h.pace hphase
    exact h.goOn (congrArg Phase.busy hphase) (congrArg Phase.open hphase) rfl (htime.lt h.elapsed_lt)
      hcursor_le (hrpt.trans_le (Nat.zero_le _)) (fun _ => Nat.lt_of_le_of_ne hcursor_le hmore) nofun nofun
  | drain x e bs htime hphase =>
    exact h.drain hphase (htime.lt h.elapsed_lt) (List.length_take_le _ _)

/-! ### The memories -/

/-- R175: the trailing bytes stored, each below `TRAIL_LEN` listed. -/
theorem State.MemoriesOk.storeTail {tl : List Byte} (h : s.MemoriesOk) (htl : tl.length ≤ s.par.trailCap) :
    (storeTail tl s).MemoriesOk :=
  { h with
    trail_wf := Memory.wf_writeBytes _ _ _ h.trail_wf
    trail_within := Memory.within_writeBytes _ _ _ _ ((Nat.zero_add _).trans_le htl) h.trail_within
    trail_listed := fun k hk => by
      have hk' : k < tl.length := hk.trans_eq (trailLen_toNat htl)
      show (Memory.read (Memory.writeBytes 0 tl s.trail) k).isSome = true
      simp [Memory.read_writeBytes, hk'] }

theorem EngineEffect.memoriesOk (heff : EngineEffect s i t) (h : s.MemoriesOk) : t.MemoriesOk := by
  cases heff with
  | drain x e bs htime hphase =>
    have hread : ((((s.timed x e).sleepFor .final s.cfg.finalWait).askWait .read 0).setPending
        ((s.pending ++ bs).drop s.par.trailCap)).MemoriesOk := { h with }
    exact hread.storeTail (List.length_take_le _ _)
  | _ => exact { h with }

/-- The bytes of `TRAIL` are valid below `TRAIL_LEN` only: at 0 none is. -/
theorem listed_zero (m : Memory) (k : Nat) (hk : k < (0 : BitVec 16).toNat) : (Memory.read m k).isSome = true :=
  absurd hk (Nat.not_lt_zero k)

/-! ### A good state after each operation -/

theorem EngineEffect.good (heff : EngineEffect s i t) (h : s.Good) : t.Good where
  parameters := by rw [heff.frame.par]; exact h.parameters
  settings := by rw [heff.frame.par, heff.frame.cfg]; exact h.settings
  session := heff.sessionOk h.session
  memories := heff.memoriesOk h.memories

/-- R152: a fresh session, with a block count that fits its register. -/
theorem startSession_good (h : s.Good) : (startSession s).Good := by
  obtain ⟨hpos, hlt⟩ := nblkOf_bounds s.par s.cfg.fileLen h.parameters h.settings.fileLen
  exact
    { parameters := h.parameters
      settings := h.settings
      memories := { h.memories with trail_listed := listed_zero s.trail }
      session :=
        { nblk_pos := fun _ => hpos
          nblk_lt := hlt
          blk_length := fun _ => chunk_length s.fileByte s.cfg.fileLen
          cursor_le := Nat.zero_le _
          outcome_none := by simp [startSession, Phase.open]
          drain_outcome := nofun
          cause_none := fun _ => rfl
          cause_aborted := nofun
          cause_fault := nofun
          completed_cursor := nofun
          aborted_cursor := nofun
          attempting_cursor := fun _ => hpos
          attempting_rpt := fun _ => Nat.zero_le _
          backoff_rpt := nofun
          pace := nofun
          completed_rpt := nofun
          aborted_rpt := nofun
          rpt_le := Nat.zero_le _
          ceiling_locked := fun _ => rfl
          ceiling_fits := h.settings.retryCeiling
          elapsed_lt := Nat.two_pow_pos _
          trailLen_le := Nat.zero_le _
          trailLen_busy := fun _ => rfl
          trailLen_fault := nofun } }

/-- R36, R37: the configuration after reset is legal. -/
theorem Settings.reset_legal {q : Parameters} (h : q.Legal) : Settings.reset.Legal q := by
  constructor <;> simp only [Settings.reset]
  case fileLen => exact Nat.zero_le _
  case retryCeiling => exact h.ceiling_default
  all_goals decide +kernel

/-- R260: reset makes a good state, with every legal choice of the parameters. -/
theorem resetWith_good {q : Parameters} (h : q.Legal) : (State.resetWith q).Good where
  parameters := h
  settings := Settings.reset_legal h
  memories := ⟨rfl, rfl, rfl, rfl, listed_zero []⟩
  session :=
    { nblk_pos := fun hphase => absurd rfl hphase
      nblk_lt := Nat.two_pow_pos _
      blk_length := fun hphase => absurd rfl hphase
      cursor_le := le_rfl
      outcome_none := by simp [State.resetWith, Session.reset, Phase.open]
      drain_outcome := nofun
      cause_none := fun _ => rfl
      cause_aborted := nofun
      cause_fault := nofun
      completed_cursor := nofun
      aborted_cursor := nofun
      attempting_cursor := nofun
      attempting_rpt := nofun
      backoff_rpt := nofun
      pace := nofun
      completed_rpt := nofun
      aborted_rpt := nofun
      rpt_le := Nat.zero_le _
      ceiling_locked := nofun
      ceiling_fits := (Nat.le_add_left 2 _).trans h.ceiling_default
      elapsed_lt := Nat.two_pow_pos _
      trailLen_le := Nat.zero_le _
      trailLen_busy := nofun
      trailLen_fault := nofun }

theorem resetBlock_good (h : s.par.Legal) : (resetBlock s).Good :=
  (resetWith_good h).of_eq rfl rfl rfl rfl rfl rfl rfl

/-! ### The host's writes -/

/-- R203: a register write keeps the configuration legal, by ignoring any value that is not. -/
theorem applyCfg_legal {q : Parameters} {x : Settings} (h : x.Legal q) (c : CfgWrite) : (applyCfg q c x).Legal q := by
  have hif : ∀ {p : Prop} [Decidable p] {y : Settings}, (p → y.Legal q) → (if p then y else x).Legal q := by
    intro p _ y hy
    split
    case isTrue hp => exact hy hp
    case isFalse => exact h
  cases c with
  | retryCeiling v => exact hif fun hv => { h with retryCeiling := hv }
  | respTimeout d => exact hif fun hd => { h with respTimeout := hd }
  | finalWait d => exact hif fun hd => { h with finalWait := hd }
  | paceDelay d => exact hif fun hd => { h with paceDelay := hd }
  | backoffBase d => exact hif fun hd => { h with backoffBase := hd }
  | backoffDiv d => exact hif fun hd => { h with backoffDiv := hd }
  | status v => exact h

theorem txWrite_cfg_and_file (f : List Byte) (s : State) :
    (txWrite f s).2.cfg = s.cfg ∧ (txWrite f s).2.file = s.file := by
  obtain ⟨e, -, -, -, -, h | h⟩ := txWrite_cases f s <;> rw [h] <;> exact ⟨rfl, rfl⟩

theorem rxRead_cfg_and_file (k : ReadUse) (n : Nat) (d : Rat) (s : State) :
    (rxRead k n d s).2.cfg = s.cfg ∧ (rxRead k n d s).2.file = s.file := by
  obtain ⟨e, -, -, -, h | ⟨bs, h⟩⟩ := rxRead_cases k n d s <;> rw [h] <;> exact ⟨rfl, rfl⟩

theorem rxClear_cfg_and_file (s : State) : (rxClear s).2.cfg = s.cfg ∧ (rxClear s).2.file = s.file := by
  obtain ⟨e, -, -, -, -, h | h⟩ := rxClear_cases s <;> rw [h] <;> exact ⟨rfl, rfl⟩

/-- With no session running, only the host's writes change the configuration or `FILE`, and reset. -/
theorem exec_keeps_cfg_and_file (h : exec i s = .next t) (hbusy : s.busy = false) (hload : ∀ l, i ≠ .hLoad l)
    (hcfg : ∀ c, i ≠ .hCfg c) (hreset : i ≠ .hReset) : t.cfg = s.cfg ∧ t.file = s.file := by
  have hengine : ¬(i.isEngineStep = true ∨ i.isControl = true ∧ s.ses.phase = .wait) := fun hi =>
    Bool.eq_false_iff.mp hbusy (exec_engineStep_effect h hi).busy
  cases i
  case hLoad l => exact absurd rfl (hload l)
  case hCfg c => exact absurd rfl (hcfg c)
  case hReset => exact absurd rfl hreset
  case eSend | eRespAck | eRespNak | eRespOther | eRespTimeout | eBackoff | ePace | eDrain | eFault =>
    exact absurd (.inl rfl) hengine
  case ack | nak | other | timeout =>
    have hphase : s.ses.phase ≠ .wait := fun hwait => hengine (.inr ⟨rfl, hwait⟩)
    simp only [exec, execAck, execNak, execOther, execTimeout, if_neg hphase] at h
    repeat' split at h
    all_goals cases h <;> exact ⟨rfl, rfl⟩
  case pad | nblkOf | chunk | widx | checksum | buildFrame | buildFrameRaw | frameOf | eStart | hStart | hStatus |
      hResult =>
    simp only [exec, execPad, execNblkOf, execChunk, execWidx, execChecksum, execBuildFrame, execBuildFrameRaw,
      execFrameOf, execEStart, execHStart, execHStatus, execHResult] at h
    repeat' split at h
    all_goals cases h <;> exact ⟨rfl, rfl⟩
  case frame =>
    cases h
    exact txWrite_cfg_and_file _ s
  case txWrite =>
    simp only [exec, execTxWrite] at h
    split at h <;> cases h
    exact txWrite_cfg_and_file _ s
  case rxRead n d =>
    simp only [exec, execRxRead] at h
    split at h <;> cases h
    exact rxRead_cfg_and_file _ n d s
  case rxClear =>
    cases h
    exact rxClear_cfg_and_file s

/-- R202: the three forms of a load, while no session runs. -/
theorem exec_hLoad_cases (hbusy : s.busy = false) {l : Load} (h : exec (.hLoad l) s = .next t) :
    (∃ bs, bs.length ≤ s.par.fileCap ∧ t = loadWhole bs s) ∨ (∃ a b, a < s.par.fileCap ∧ t = loadByte a b s) ∨
    ∃ n, t = loadLength n s := by
  rw [exec, execHLoad.eq_def, if_neg (Bool.eq_false_iff.mp hbusy)] at h
  cases l with
  | whole bs => simp only at h; split at h <;> cases h; exact .inl ⟨bs, ‹_›, rfl⟩
  | byte a b => simp only at h; split at h <;> cases h; exact .inr (.inl ⟨a, b, ‹_›, rfl⟩)
  | length n => cases h; exact .inr (.inr ⟨n, rfl⟩)

/-- R202: the host's writes of `FILE` and `FILE_LEN` keep them inside their bounds. -/
theorem hLoad_good (h : s.Good) (hbusy : s.busy = false) {l : Load} (hexec : exec (.hLoad l) s = .next t) : t.Good := by
  obtain ⟨bs, hlen, rfl⟩ | ⟨a, b, ha, rfl⟩ | ⟨n, rfl⟩ := exec_hLoad_cases hbusy hexec
  · exact
      { parameters := h.parameters
        settings := { h.settings with fileLen := hlen }
        session := { h.session with
          attempting_rpt := h.session.attempting_rpt
          ceiling_locked := h.session.ceiling_locked }
        memories := { h.memories with
          file_wf := Memory.wf_writeBytes _ _ _ h.memories.file_wf
          file_within := Memory.within_writeBytes _ _ _ _ ((Nat.zero_add _).trans_le hlen) h.memories.file_within } }
  · exact
      { parameters := h.parameters
        settings := h.settings
        session := { h.session with }
        memories := { h.memories with
          file_wf := Memory.wf_write _ _ _ h.memories.file_wf
          file_within := Memory.within_write _ _ _ _ ha h.memories.file_within } }
  · unfold loadLength
    split
    case isTrue hn =>
      exact ⟨h.parameters, { h.settings with fileLen := hn }, { h.session with }, { h.memories with }⟩
    case isFalse => exact h

theorem Phase.not_attempting_of_not_busy {p : Phase} (h : p.busy = false) : p.attempting = false := by
  revert h
  cases p <;> decide

/-- R203: the write of a register keeps a good state while no session runs. -/
theorem hCfg_good (h : s.Good) (hbusy : s.busy = false) (c : CfgWrite) :
    (s.setCfg (applyCfg s.par c s.cfg)).Good where
  parameters := h.parameters
  settings := applyCfg_legal h.settings c
  session := { h.session with
    attempting_rpt := fun hattempt =>
      absurd ((Phase.not_attempting_of_not_busy hbusy).symm.trans hattempt) Bool.false_ne_true
    ceiling_locked := fun hbusy' => absurd (hbusy.symm.trans hbusy') Bool.false_ne_true }
  memories := { h.memories with }

/-- Beside what a quiet operation leaves alone, it keeps the configuration legal and `FILE` in its bounds. -/
theorem Quiet.good (hquiet : Quiet i s t) (hexec : exec i s = .next t) (h : s.Good) : t.Good := by
  have hsame : t.cfg = s.cfg ∧ t.file = s.file → t.Good := fun ⟨hcfg, hfile⟩ =>
    h.of_eq hquiet.par hquiet.ses hcfg hquiet.lockedCeiling hfile hquiet.blk hquiet.trail
  cases hbusy : s.busy with
  | true => exact hsame (hquiet.locked hbusy)
  | false =>
    by_cases hload : ∃ l, i = .hLoad l
    · obtain ⟨l, rfl⟩ := hload
      exact hLoad_good h hbusy hexec
    · by_cases hcfg : ∃ c, i = .hCfg c
      · obtain ⟨c, rfl⟩ := hcfg
        obtain rfl := Host.Outcome.next.inj ((exec_hCfg_of_not_busy hbusy c).symm.trans hexec)
        exact hCfg_good h hbusy c
      · by_cases hreset : i = .hReset
        · subst hreset
          obtain rfl : resetBlock s = t := Host.Outcome.next.inj hexec
          exact resetBlock_good h.parameters
        · exact hsame (exec_keeps_cfg_and_file hexec hbusy (not_exists.mp hload) (not_exists.mp hcfg) hreset)

theorem exec_good (hexec : exec i s = .next t) (h : s.Good) : t.Good ∧ t.par = s.par := by
  obtain hquiet | ⟨-, -, rfl⟩ | ⟨-, rfl⟩ | heff := exec_effect_cases hexec
  · exact ⟨hquiet.good hexec h, hquiet.par⟩
  · exact ⟨startSession_good h, rfl⟩
  · exact ⟨resetBlock_good h.parameters, rfl⟩
  · exact ⟨heff.good h, heff.frame.par⟩

/-! ### The obligations -/

/-- R9: the default parameters are legal. -/
theorem Parameters.default_legal : Parameters.default.Legal := by
  constructor <;> decide +kernel

/-- Settles O46: the default parameters are legal. -/
theorem resetIsGood : Obligations.ResetIsGood := resetWith_good Parameters.default_legal

/-- Settles O47: the choice of the step leaves alone what a good state is made of, and every operation keeps it. -/
theorem stepKeepsGood : Obligations.StepKeepsGood := by
  intro s t h hstep
  obtain hchosen | ⟨i, u, hchosen, hexec⟩ := step_cases hstep
  · exact ⟨hchosen.good h, hchosen.par⟩
  · obtain ⟨hgood, hpar⟩ := exec_good hexec (hchosen.good h)
    exact ⟨hgood, hpar.trans hchosen.par⟩

end Sys2Proof.Machine
end

section
/-! What the event history says of the registers (R180, R181, R73): true of the empty history after reset, and kept by
every operation. O48 and O49. -/

namespace Sys2Proof.Machine

variable {s t : State} {i : Instr}

/-! ### Events beside the writes and the responses -/

/-- `h'` counts what `h` counts. -/
structure SameCounts (h h' : List Event) : Prop where
  nacks : nacks h' = nacks h
  negatives : negativesSinceAck h' = negativesSinceAck h
  frames : framesSinceAck h' = framesSinceAck h
  outstanding : outstanding h' = outstanding h
  nwrites : nwrites h' = nwrites h
  writes : ∀ f, .write f ∈ h' → .write f ∈ h

theorem SameCounts.refl (h : List Event) : SameCounts h h := ⟨rfl, rfl, rfl, rfl, rfl, fun _ => id⟩

theorem SameCounts.trans {a b c : List Event} (h : SameCounts a b) (g : SameCounts b c) : SameCounts a c :=
  ⟨g.nacks.trans h.nacks, g.negatives.trans h.negatives, g.frames.trans h.frames, g.outstanding.trans h.outstanding,
    g.nwrites.trans h.nwrites, fun f hf => h.writes f (g.writes f hf)⟩

theorem sameCounts_append_aside (h : List Event) {ev : Event} (hev : ev.isAside = true) : SameCounts h (h ++ [ev]) := by
  cases ev with
  | write f => cases hev
  | read r => cases hev
  | _ =>
    constructor <;> simp [nacks_append, negativesSinceAck_append, framesSinceAck_append, outstanding_append,
      nwrites_append, Event.isAck, Event.isNegative, Event.isWrite, countNegative, collectFrame, trackOutstanding]

theorem sameCounts_append_asides (h evs : List Event) (hevs : ∀ ev ∈ evs, ev.isAside = true) :
    SameCounts h (h ++ evs) := by
  induction evs generalizing h with
  | nil => rw [List.append_nil]; exact .refl h
  | cons ev evs ih =>
    obtain ⟨hev, hevs⟩ := List.forall_mem_cons.mp hevs
    have hsplit : h ++ ev :: evs = h ++ [ev] ++ evs := by simp
    rw [hsplit]
    exact (sameCounts_append_aside h hev).trans (ih _ hevs)

/-! ### The history after an engine step -/

theorem block?_congr (hblk : t.blk = s.blk) (hnblk : t.ses.nblk = s.ses.nblk) (i : Nat) : t.block? i = s.block? i := by
  rw [State.block?, State.block?, hblk, hnblk]

/-- In a running session the response read is outstanding or it is not; in neither case has the alternation broken. -/
theorem State.HistoryOk.outstanding_ne_none (h : s.HistoryOk) (hbusy : s.busy = true) : outstanding s.hist ≠ none := by
  rw [h.stopAndWait hbusy]
  exact Option.some_ne_none _

/-- A step with no write and no response: the history counts what it did, and so do the registers. -/
theorem State.HistoryOk.aside (h : s.HistoryOk) (hframe : EngineFrame s t) (hbusy : s.busy = true)
    (hcounts : SameCounts s.hist t.hist) (hcursor : t.ses.cursor = s.ses.cursor) (hrpt : t.ses.rpt = s.ses.rpt)
    (hwait : t.busy = true → s.ses.phase ≠ .wait ∧ t.ses.phase ≠ .wait) : t.HistoryOk := by
  have hrunning := Phase.busy_ne_idle hbusy
  have hattempts : t.busy = true → t.attemptsMade = s.attemptsMade := by
    intro hbusy'
    obtain ⟨hs, ht⟩ := hwait hbusy'
    rw [State.attemptsMade, State.attemptsMade, if_neg hs, if_neg ht, hrpt]
  constructor
  case acks => exact fun _ => by rw [hcounts.nacks, hcursor, h.acks hrunning]
  case negatives => exact fun _ => by rw [hcounts.negatives, hrpt, h.negatives hrunning]
  case stopAndWait =>
    intro hbusy'
    obtain ⟨hs, ht⟩ := hwait hbusy'
    rw [hcounts.outstanding, h.stopAndWait hbusy, beq_false_of_ne hs, beq_false_of_ne ht]
  case stopAndWait_done => exact fun _ => by rw [hcounts.outstanding]; exact h.outstanding_ne_none hbusy
  case attempts =>
    intro hbusy' p hp
    rw [block?_congr hframe.blk hframe.nblk, hcursor] at hp
    rw [hcounts.frames, hattempts hbusy', hcursor, h.attempts hbusy p hp]
  case frames =>
    intro f hf
    obtain ⟨i, p, hp, hi, hfp⟩ := h.frames f (hcounts.writes f hf)
    exact ⟨i, p, (block?_congr hframe.blk hframe.nblk i).trans hp, hi.trans_eq hcursor.symm, hfp⟩
  case writes_le =>
    intro hbusy'
    rw [hcounts.nwrites, hcursor, hframe.cfg, hattempts hbusy']
    exact h.writes_le hbusy

/-- R155: one write more of the frame of block `CURSOR`, its response now outstanding. -/
theorem State.HistoryOk.send {p : Block} (h : s.HistoryOk) (hframe : EngineFrame s t) (hphase : s.ses.phase = .send)
    (hp : s.block? s.ses.cursor = some p)
    (hhist : t.hist = s.hist ++ [.clear] ++ [.write (buildFrame (widx s.ses.cursor) p)])
    (hcursor : t.ses.cursor = s.ses.cursor) (hrpt : t.ses.rpt = s.ses.rpt) (hwait : t.ses.phase = .wait) :
    t.HistoryOk := by
  have hbusy : s.busy = true := congrArg Phase.busy hphase
  have hrunning := Phase.busy_ne_idle hbusy
  have hclear := sameCounts_append_aside s.hist (ev := .clear) rfl
  have hmade : s.attemptsMade = s.ses.rpt := if_neg (by simp [hphase])
  have hmade' : t.attemptsMade = s.ses.rpt + 1 := (if_pos hwait).trans (by rw [hrpt])
  constructor
  case acks =>
    intro _
    rw [hhist, nacks_append, hclear.nacks, h.acks hrunning, hcursor]
    rfl
  case negatives =>
    intro _
    rw [hhist, negativesSinceAck_append, hclear.negatives, h.negatives hrunning, hrpt]
    rfl
  case stopAndWait =>
    intro _
    rw [hhist, outstanding_append, hclear.outstanding, h.stopAndWait hbusy, hphase, hwait]
    rfl
  case stopAndWait_done =>
    intro hdone
    exact absurd (hwait.symm.trans hdone) (by decide)
  case attempts =>
    intro _ p' hp'
    rw [block?_congr hframe.blk hframe.nblk, hcursor] at hp'
    obtain rfl : p = p' := Option.some.inj (hp.symm.trans hp')
    rw [hhist, framesSinceAck_append, hclear.frames, h.attempts hbusy p hp, hmade, hmade', hcursor]
    exact List.replicate_succ'.symm
  case frames =>
    intro f hf
    simp only [block?_congr hframe.blk hframe.nblk, hcursor]
    obtain hf | hf := List.mem_append.mp (hhist ▸ hf)
    · exact h.frames f (hclear.writes f hf)
    · obtain rfl := Event.write.inj (List.mem_singleton.mp hf)
      exact ⟨_, p, hp, le_rfl, rfl⟩
  case writes_le =>
    intro _
    have hwrites := h.writes_le hbusy
    rw [hmade] at hwrites
    rw [hhist, nwrites_append, hclear.nwrites, hcursor, hframe.cfg, hmade']
    exact Nat.succ_le_succ hwrites

/-- A response is not a write. -/
theorem write_mem_append_read {h : List Event} {r : Response} {f : List Byte} :
    .write f ∈ h ++ [.read r] → .write f ∈ h := by
  simp

/-- R158: the response read, an ACK; block `CURSOR` is a new one, not yet written. -/
theorem State.HistoryOk.ack {x : Nat} {e : Env} (h : s.HistoryOk) (hgood : s.Good) (hphase : s.ses.phase = .wait) :
    (advance ((s.timed x e).emit [.read .ack])).HistoryOk := by
  have hbusy : s.busy = true := congrArg Phase.busy hphase
  have hrunning := Phase.busy_ne_idle hbusy
  have hmade : s.attemptsMade = s.ses.rpt + 1 := if_pos hphase
  constructor <;> simp only [advance, State.setSes_hist, State.emit_hist, State.setEnv_hist]
  case acks =>
    intro _
    rw [nacks_append, h.acks hrunning]
    rfl
  case negatives =>
    intro _
    rw [negativesSinceAck_append]
    rfl
  case stopAndWait =>
    intro _
    rw [outstanding_append, h.stopAndWait hbusy, hphase]
    rfl
  case stopAndWait_done => nofun
  case attempts =>
    intro _ p' hp'
    rw [framesSinceAck_append]
    rfl
  case frames =>
    intro f hf
    obtain ⟨i, p, hp, hi, hfp⟩ := h.frames f (write_mem_append_read hf)
    exact ⟨i, p, hp, hi.trans (Nat.le_succ _), hfp⟩
  case writes_le =>
    intro _
    have hrpt := hgood.session.attempting_rpt (congrArg Phase.attempting hphase)
    have hwrites := h.writes_le hbusy
    rw [hmade] at hwrites
    show nwrites (s.hist ++ [.read .ack]) ≤ (s.ses.cursor + 1) * (s.cfg.retryCeiling + 1) + 0
    rw [nwrites_append, Nat.succ_mul]
    exact (hwrites.trans (Nat.add_le_add_left (Nat.succ_le_succ hrpt) _))

/-- A response that is no ACK is a negative signal and no write. -/
theorem Response.counts_of_ne_ack {r : Response} (hr : r ≠ .ack) :
    (Event.read r).isAck = false ∧ (Event.read r).isNegative = true ∧ ∀ fs, collectFrame fs (.read r) = fs := by
  cases r with
  | ack => exact absurd rfl hr
  | _ => exact ⟨rfl, rfl, fun _ => rfl⟩

/-- R159 to R162: the response read, a negative signal. -/
theorem State.HistoryOk.negative {r : Response} (h : s.HistoryOk) (hframe : EngineFrame s t)
    (hphase : s.ses.phase = .wait) (hr : r ≠ .ack) (hhist : t.hist = s.hist ++ [.read r])
    (hcursor : t.ses.cursor = s.ses.cursor) (hrpt : t.ses.rpt = s.ses.rpt + 1) (hwait : t.ses.phase ≠ .wait) :
    t.HistoryOk := by
  obtain ⟨hack, hnegative, hcollect⟩ := Response.counts_of_ne_ack hr
  have hbusy : s.busy = true := congrArg Phase.busy hphase
  have hrunning := Phase.busy_ne_idle hbusy
  have hmade : t.attemptsMade = s.attemptsMade := by
    rw [State.attemptsMade, State.attemptsMade, if_pos hphase, if_neg hwait, hrpt]
  have hread : outstanding t.hist = some false := by
    rw [hhist, outstanding_append, h.stopAndWait hbusy, hphase]
    rfl
  constructor
  case acks =>
    intro _
    rw [hhist, nacks_append, h.acks hrunning, hcursor, hack]
    rfl
  case negatives =>
    intro _
    rw [hhist, negativesSinceAck_append, h.negatives hrunning, hrpt, countNegative, hack, hnegative]
    rfl
  case stopAndWait => exact fun _ => by rw [hread, beq_false_of_ne hwait]
  case stopAndWait_done => exact fun _ => by rw [hread]; exact Option.some_ne_none _
  case attempts =>
    intro _ p hp
    rw [block?_congr hframe.blk hframe.nblk, hcursor] at hp
    rw [hhist, framesSinceAck_append, hcollect, h.attempts hbusy p hp, hmade, hcursor]
  case frames =>
    intro f hf
    simp only [block?_congr hframe.blk hframe.nblk, hcursor]
    exact h.frames f (write_mem_append_read (hhist ▸ hf))
  case writes_le =>
    intro _
    rw [hhist, nwrites_append, hmade, hcursor, hframe.cfg]
    exact h.writes_le hbusy

theorem EngineEffect.historyOk (heff : EngineEffect s i t) (hgood : s.Good) (h : s.HistoryOk) : t.HistoryOk := by
  have hframe := heff.frame
  cases heff with
  | fault x e op evs ps ws htime hbusy hevs hi =>
    have hcounts := (sameCounts_append_asides s.hist evs hevs).trans
      (sameCounts_append_aside _ (ev := .fault op) rfl)
    exact h.aside hframe hbusy hcounts rfl rfl nofun
  | send x e p htime hphase hp => exact h.send hframe hphase hp rfl rfl rfl rfl
  | ack x e htime hphase hi => exact h.ack hgood hphase
  | abort x e r htime hphase hr hi hceiling => exact h.negative hframe hphase hr rfl rfl rfl nofun
  | retry x e r htime hphase hr hi hceiling => exact h.negative hframe hphase hr rfl rfl rfl nofun
  | backoff x e u htime hphase =>
    exact h.aside hframe (congrArg Phase.busy hphase) (sameCounts_append_aside _ rfl) rfl rfl
      fun _ => ⟨by simp [hphase], nofun⟩
  | complete x e htime hphase hlast =>
    exact h.aside hframe (congrArg Phase.busy hphase) (sameCounts_append_aside _ rfl) rfl rfl
      fun _ => ⟨by simp [hphase], nofun⟩
  | nextBlock x e htime hphase hmore =>
    exact h.aside hframe (congrArg Phase.busy hphase) (sameCounts_append_aside _ rfl) rfl rfl
      fun _ => ⟨by simp [hphase], nofun⟩
  | drain x e bs htime hphase =>
    have hcounts := (sameCounts_append_aside s.hist (ev := .sleep .final) rfl).trans
      (sameCounts_append_aside _ (ev := .drain ((s.pending ++ bs).take s.par.trailCap)) rfl)
    exact h.aside hframe (congrArg Phase.busy hphase) hcounts rfl rfl nofun

/-! ### The history after the other operations -/

/-- What `State.HistoryOk` looks at; of the configuration only while a session runs. -/
theorem State.HistoryOk.of_eq (h : s.HistoryOk) (hses : t.ses = s.ses) (hblk : t.blk = s.blk) (hhist : t.hist = s.hist)
    (hcfg : s.busy = true → t.cfg = s.cfg) : t.HistoryOk := by
  have hblock : ∀ i, t.block? i = s.block? i := block?_congr hblk (congrArg Session.nblk hses)
  have hbusy : t.busy = s.busy := congrArg (fun x : Session => x.phase.busy) hses
  constructor <;> simp only [hbusy, hblock, hses, hhist, State.attemptsMade]
  case acks => exact h.acks
  case negatives => exact h.negatives
  case stopAndWait => exact h.stopAndWait
  case stopAndWait_done => exact h.stopAndWait_done
  case attempts => exact h.attempts
  case frames => exact h.frames
  case writes_le =>
    intro hb
    rw [hcfg hb]
    exact h.writes_le hb

/-- The empty history agrees with registers at 0, before any write. -/
theorem historyOk_of_hist_eq_nil (hhist : s.hist = []) (hcursor : s.ses.cursor = 0) (hrpt : s.ses.rpt = 0)
    (hphase : s.ses.phase ≠ .wait) : s.HistoryOk := by
  have hmade : s.attemptsMade = 0 := (if_neg hphase).trans hrpt
  constructor <;> rw [hhist]
  case acks => exact fun _ => hcursor.symm
  case negatives => exact fun _ => hrpt.symm
  case stopAndWait => exact fun _ => by rw [beq_false_of_ne hphase]; rfl
  case stopAndWait_done => exact fun _ => Option.some_ne_none _
  case attempts => exact fun _ p _ => by rw [hmade]; rfl
  case frames => exact fun f hf => absurd hf List.not_mem_nil
  case writes_le => exact fun _ => Nat.zero_le _

theorem exec_historyOk (hexec : exec i s = .next t) (hgood : s.Good) (h : s.HistoryOk) : t.HistoryOk := by
  obtain hquiet | ⟨-, -, rfl⟩ | ⟨-, rfl⟩ | heff := exec_effect_cases hexec
  · exact h.of_eq hquiet.ses hquiet.blk hquiet.hist fun hbusy => (hquiet.locked hbusy).1
  · exact historyOk_of_hist_eq_nil rfl rfl rfl nofun
  · exact historyOk_of_hist_eq_nil rfl rfl rfl nofun
  · exact heff.historyOk hgood h

theorem Chosen.historyOk (h : Chosen s t) (hs : s.HistoryOk) : t.HistoryOk :=
  hs.of_eq h.ses h.blk h.hist fun _ => h.cfg

/-! ### The obligations -/

/-- Settles O48: the history after reset is empty and the registers are at 0. -/
theorem resetHistoryAgrees : Obligations.ResetHistoryAgrees := historyOk_of_hist_eq_nil rfl rfl rfl nofun

/-- Settles O49: the choice of the step leaves alone what the invariant is about, and every operation keeps it. -/
theorem stepKeepsHistory : Obligations.StepKeepsHistory := by
  intro s t hgood h hstep
  obtain hchosen | ⟨i, u, hchosen, hexec⟩ := step_cases hstep
  · exact hchosen.historyOk h
  · exact exec_historyOk hexec (hchosen.good hgood) (hchosen.historyOk h)

end Sys2Proof.Machine
end

section
/-! Whole-machine rules, each read off from everything an operation can do: what moves `CURSOR`, what a running or an
ended session keeps, what goes wrong, what is sent, and how `ELAPSED` grows. O50 to O56. -/

namespace Sys2Proof.Machine

variable {s t : State} {i : Instr}

/-! ### What each engine step does to a register or a stream -/

/-- R158: `CURSOR` moves on an ACK only. -/
theorem EngineEffect.cursor (h : EngineEffect s i t) : t.ses.cursor = s.ses.cursor ∨
    s.ses.phase = .wait ∧ (i = .ack ∨ i = .eRespAck) ∧ t.ses.cursor = s.ses.cursor + 1 := by
  cases h with
  | ack x e htime hphase hi => exact .inr ⟨hphase, hi, rfl⟩
  | _ => exact .inl rfl

/-- R178: `FAULT` comes by a transport fault only. -/
theorem EngineEffect.fault_of_goneWrong (h : EngineEffect s i t) (hwrong : t.goneWrong) (hwell : ¬s.goneWrong) :
    (i = .eSend ∨ i = .eDrain ∨ ∃ op, i = .eFault op) ∧ t.ses.phase = .done ∧ t.ses.cause = .transportFault ∧
      ∃ op h, t.hist = h ++ [.fault op] := by
  cases h with
  | fault x e op evs ps ws htime hbusy hevs hi =>
    exact ⟨hi.imp_right (Or.imp_right fun hop => ⟨op, hop⟩), rfl, rfl, op, _, rfl⟩
  | abort => cases hwrong
  | complete => cases hwrong
  | _ => exact absurd hwrong hwell

/-- R155: only an attempt sends, and it sends the frame of block `CURSOR`. -/
theorem EngineEffect.sent (h : EngineEffect s i t) : t.sent = s.sent ∨ ∃ p, i = .eSend ∧ s.ses.phase = .send ∧
    s.block? s.ses.cursor = some p ∧ t.sent = s.sent ++ [buildFrame (widx s.ses.cursor) p] := by
  cases h with
  | send x e p htime hphase hp => exact .inr ⟨p, rfl, hphase, hp, rfl⟩
  | _ => exact .inl rfl

/-- R175: from `DRAIN` the engine goes to `DONE`. -/
theorem EngineEffect.done_of_drain (h : EngineEffect s i t) (hdrain : s.ses.phase = .drain) : t.ses.phase = .done := by
  cases h with
  | fault => rfl
  | drain => rfl
  | send x e p htime hphase => exact absurd (hdrain.symm.trans hphase) nofun
  | ack x e htime hphase => exact absurd (hdrain.symm.trans hphase) nofun
  | abort x e r htime hphase => exact absurd (hdrain.symm.trans hphase) nofun
  | retry x e r htime hphase => exact absurd (hdrain.symm.trans hphase) nofun
  | backoff x e u htime hphase => exact absurd (hdrain.symm.trans hphase) nofun
  | complete x e htime hphase => exact absurd (hdrain.symm.trans hphase) nofun
  | nextBlock x e htime hphase => exact absurd (hdrain.symm.trans hphase) nofun

/-- In `DONE` no engine step is enabled (R262). -/
theorem EngineEffect.not_done (h : EngineEffect s i t) : s.ses.phase ≠ .done := by
  intro hdone
  exact absurd ((congrArg Phase.busy hdone).symm.trans h.busy) Bool.false_ne_true

theorem Response.isEngineStep_or_isControl (r : Response) (hwait : s.ses.phase = .wait)
    (hi : i = r.lineItem ∨ i = r.engineStep) : i.isEngineStep = true ∨ i.isControl = true ∧ s.ses.phase = .wait := by
  obtain rfl | rfl := hi
  · exact .inr ⟨by cases r <;> rfl, hwait⟩
  · exact .inl (by cases r <;> rfl)

/-- The operations that have an effect are the engine steps and the items that select one in `WAIT`. -/
theorem EngineEffect.isEngineStep_or_isControl (h : EngineEffect s i t) :
    i.isEngineStep = true ∨ i.isControl = true ∧ s.ses.phase = .wait := by
  cases h with
  | fault x e op evs ps ws htime hbusy hevs hi => obtain rfl | rfl | rfl := hi <;> exact .inl rfl
  | ack x e htime hphase hi => exact Response.isEngineStep_or_isControl .ack hphase hi
  | abort x e r htime hphase hr hi => exact r.isEngineStep_or_isControl hphase hi
  | retry x e r htime hphase hr hi => exact r.isEngineStep_or_isControl hphase hi
  | _ => exact .inl rfl

/-- An operation that is no start and no reset is quiet or an engine step. -/
theorem exec_quiet_or_effect (h : exec i s = .next t) (hestart : i ≠ .eStart) (hhstart : i ≠ .hStart)
    (hreset : i ≠ .hReset) : Quiet i s t ∨ EngineEffect s i t := by
  obtain hquiet | ⟨hstart, -, -⟩ | ⟨hi, -⟩ | heff := exec_effect_cases h
  · exact .inl hquiet
  · exact absurd hstart (by simp [hestart, hhstart])
  · exact absurd hi hreset
  · exact .inr heff

/-- No operation but a start or a reset leads out of the end of a session, and none but a write by name sends there. -/
theorem exec_of_ending (hphase : s.ses.phase = .drain ∨ s.ses.phase = .done) (hestart : i ≠ .eStart)
    (hhstart : i ≠ .hStart) (hreset : i ≠ .hReset) (h : exec i s = .next t) :
    (t.ses.phase = .drain ∨ t.ses.phase = .done) ∧
      (t.sent = s.sent ∨ (∃ f, i = .txWrite f) ∨ ∃ idx p, i = .frame idx p) := by
  obtain hquiet | heff := exec_quiet_or_effect h hestart hhstart hreset
  · refine ⟨by rwa [hquiet.ses], hquiet.sent.imp id ?_⟩
    rintro ⟨idx, p, rfl | rfl, -⟩
    · exact .inl ⟨_, rfl⟩
    · exact .inr ⟨idx, p, rfl⟩
  · have hdrain : s.ses.phase = .drain := hphase.resolve_right heff.not_done
    refine ⟨.inr (heff.done_of_drain hdrain), .inl ?_⟩
    obtain hsent | ⟨p, -, hsend, -⟩ := heff.sent
    · exact hsent
    · exact absurd (hdrain.symm.trans hsend) nofun

theorem sameStores_of (hfile : t.file = s.file) (hepoch : t.env.fileEpoch = s.env.fileEpoch) (hblk : t.blk = s.blk) :
    SameStores s t :=
  ⟨fileByte_congr hfile hepoch, fun i => by rw [hblk]⟩

/-! ### The obligations -/

/-- Settles O50: of the engine steps the ACK alone moves `CURSOR`, and a start or a reset clears it. -/
theorem cursorMovesOnlyOnAck : Obligations.CursorMovesOnlyOnAck := by
  intro i s t h
  obtain hquiet | ⟨hi, -, rfl⟩ | ⟨hi, rfl⟩ | heff := exec_effect_cases h
  · exact .inl (by rw [hquiet.ses])
  · exact .inr (.inr ⟨by tauto, rfl⟩)
  · exact .inr (.inr ⟨.inr (.inr hi), rfl⟩)
  · exact heff.cursor.imp_right .inl

/-- Settles O51: what every engine step leaves alone, and what a quiet operation does while a session runs. -/
theorem sessionIsLockedWhileBusy : Obligations.SessionIsLockedWhileBusy := by
  intro i s t hbusy hreset h
  obtain hquiet | ⟨-, hidle, -⟩ | ⟨hi, -⟩ | heff := exec_effect_cases h
  · obtain ⟨hcfg, hfile⟩ := hquiet.locked hbusy
    exact ⟨hcfg, sameStores_of hfile hquiet.draws.fileEpoch hquiet.blk⟩
  · exact absurd (hidle.symm.trans hbusy) Bool.false_ne_true
  · exact absurd hi hreset
  · exact ⟨heff.frame.cfg, sameStores_of heff.frame.file heff.frame.fileEpoch heff.frame.blk⟩

/-- Settles O52: in `DONE` no engine step is enabled. -/
theorem resultsStayUntilStartOrReset : Obligations.ResultsStayUntilStartOrReset := by
  intro i s t hdone hreset hhstart hestart h
  obtain hquiet | heff := exec_quiet_or_effect h hestart hhstart hreset
  · exact ⟨hquiet.ses, sameTrail_of hquiet.trail (by rw [hquiet.ses]) hquiet.draws.trailEpoch, hquiet.hist⟩
  · exact absurd hdone heff.not_done

/-- Settles O53: a quiet operation keeps the outcome, a start and a reset clear it. -/
theorem onlyTransportFaultsGoWrong : Obligations.OnlyTransportFaultsGoWrong := by
  intro i s t h hwrong hwell
  obtain hquiet | ⟨-, -, rfl⟩ | ⟨-, rfl⟩ | heff := exec_effect_cases h
  · exact absurd hwrong (by rwa [State.goneWrong, hquiet.ses])
  · cases hwrong
  · cases hwrong
  · exact heff.fault_of_goneWrong hwrong hwell

/-- Settles O54: the attempt, and the one write of a quiet operation. -/
theorem onlyFramesGoOut : Obligations.OnlyFramesGoOut := by
  intro i s t h
  obtain hquiet | ⟨-, -, rfl⟩ | ⟨-, rfl⟩ | heff := exec_effect_cases h
  · exact hquiet.sent.imp_right .inr
  · exact .inl rfl
  · exact .inl rfl
  · exact heff.sent.imp_right fun ⟨p, hi, _, hp, hsent⟩ => .inl ⟨p, hi, hp, hsent⟩

/-- Settles O55: a step sends nothing, or one more frame. -/
theorem everythingSentIsAFrame : Obligations.EverythingSentIsAFrame := by
  intro s t h hstep
  obtain hchosen | ⟨i, u, hchosen, hexec⟩ := step_cases hstep
  · rwa [hchosen.sent]
  · rw [← hchosen.sent] at h
    have hmore : ∀ idx p, t.sent = u.sent ++ [buildFrame idx p] → ∀ f ∈ t.sent, ∃ idx p, f = buildFrame idx p := by
      intro idx p hsent f hf
      obtain hf | hf := List.mem_append.mp (hsent ▸ hf)
      · exact h f hf
      · exact ⟨idx, p, List.mem_singleton.mp hf⟩
    obtain hsent | ⟨p, -, -, hsent⟩ | ⟨idx, p, -, hsent⟩ := onlyFramesGoOut i u t hexec
    · rwa [hsent]
    · exact hmore _ p hsent
    · exact hmore idx p hsent

/-- Settles O56: time passes over the engine steps and the answers of the response read, and over nothing else. -/
theorem elapsedNeverFalls : Obligations.ElapsedNeverFalls := by
  intro i s t h hestart hhstart hreset
  refine ⟨?_, fun hengine d ds hd hwidth => ?_, fun hother => ?_⟩
  · obtain hquiet | heff := exec_quiet_or_effect h hestart hhstart hreset
    · rw [hquiet.ses]
    · obtain ⟨e, htime⟩ := heff.timePasses
      exact htime.le
  · obtain ⟨e, htime⟩ := (exec_engineStep_effect h hengine).timePasses
    exact htime.amount d ds hd hwidth
  · obtain hquiet | heff := exec_quiet_or_effect h hestart hhstart hreset
    · rw [hquiet.ses]
    · exact absurd heff.isEngineStep_or_isControl hother

end Sys2Proof.Machine
end

section
/-! The Framer's functions as a whole (40_framer.md): the blocks of a file byte by byte, the period of the wire index,
what the checksum detects, and the operands a frame determines. O7, O8, O10, O12, O14 and O16. -/

namespace Sys2Proof.Machine

/-! ### The blocks of a file -/

theorem Block.ext {p q : Block} (h : p.bytes = q.bytes) : p = q := by
  cases p
  cases q
  cases h
  rfl

/-- R123: byte `k` of a slice. -/
theorem fileSlice_getElem? (file : Nat → Byte) (lo hi k : Nat) :
    (fileSlice file lo hi)[k]? = if lo + k < hi then some (file (lo + k)) else none := by
  unfold fileSlice
  split
  case isTrue h => rw [List.getElem?_map, List.getElem?_range' (by omega), Option.map_some, Nat.one_mul]
  case isFalse h => rw [List.getElem?_eq_none]; simp only [List.length_map, List.length_range']; omega

/-- R123, the second of its pseudocode forms: byte `j` of block `i`. -/
theorem chunkBlock_getElem? (file : Nat → Byte) (n i : Nat) {j : Nat} (hj : j < 128) :
    (chunkBlock file n i).bytes[j]? = some (if 128 * i + j < n then file (128 * i + j) else Config.PAD) := by
  rw [chunkBlock, padBlock, padBytes_getElem? _ j hj, fileSlice_getElem?]
  have hmin : 128 * i + j < min n (128 * i + 128) ↔ 128 * i + j < n := by omega
  simp only [hmin]
  split <;> rfl

/-- R60, R123: `CHUNK` reads the bytes below `N` only. -/
theorem chunk_congr {f g : Nat → Byte} {n : Nat} (h : ∀ a, a < n → f a = g a) : chunk f n = chunk g n := by
  have hslice : ∀ i, fileSlice f (128 * i) (min n (128 * i + 128)) = fileSlice g (128 * i) (min n (128 * i + 128)) := by
    intro i
    refine List.map_congr_left fun a ha => h a ?_
    obtain ⟨k, hk, rfl⟩ := List.mem_range'.mp ha
    omega
  exact List.map_congr_left fun i _ => Block.ext (congrArg padBytes (hslice i))

theorem chunk_getElem?_eq_some {file : Nat → Byte} {n i : Nat} {b : Block} (h : (chunk file n)[i]? = some b) :
    b = chunkBlock file n i := by
  have hi : i < nblkOf n := chunk_length file n ▸ (List.getElem?_eq_some_iff.mp h).1
  exact (Option.some.inj ((chunk_getElem? file n i hi).symm.trans h)).symm

/-- R123, of an `N` that is at most `FILE_LEN`. -/
theorem exec_chunk {n : Nat} {s : State} (hcap : n ≤ s.par.fileCap) (hlen : n ≤ s.cfg.fileLen) :
    exec (.chunk n) s = .next (s.respond (.blocks (chunk s.fileByte n))) :=
  (if_pos (decide_eq_true hcap)).trans (if_pos hlen)

/-- Log entry 26, of an `N` above `FILE_LEN`. -/
theorem exec_chunk_beyond {n : Nat} {s : State} (hcap : n ≤ s.par.fileCap) (hlen : s.cfg.fileLen < n) :
    exec (.chunk n) s = .fault (.beyondFileLen n) :=
  (if_pos (decide_eq_true hcap)).trans (if_neg hlen.not_ge)

/-! ### The blocks joined -/

/-- Byte `128 * i + j` of blocks that are joined is byte `j` of block `i`. -/
theorem flatMap_bytes_getElem? (bs : List Block) (i : Nat) {j : Nat} (hj : j < 128) :
    (bs.flatMap Block.bytes)[128 * i + j]? = bs[i]?.bind fun b => b.bytes[j]? := by
  induction bs generalizing i with
  | nil => rfl
  | cons b bs ih =>
    rw [List.flatMap_cons]
    cases i with
    | zero => rw [List.getElem?_append_left (by rw [b.len]; omega), Nat.mul_zero, Nat.zero_add]; rfl
    | succ i =>
      have hindex : 128 * (i + 1) + j - 128 = 128 * i + j := by omega
      rw [List.getElem?_append_right (by rw [b.len]; omega), b.len, hindex, ih i, List.getElem?_cons_succ]

theorem flatMap_bytes_length (bs : List Block) : (bs.flatMap Block.bytes).length = 128 * bs.length := by
  induction bs with
  | nil => rfl
  | cons b bs ih => rw [List.flatMap_cons, List.length_append, b.len, ih, List.length_cons]; omega

/-- R122: the blocks hold the file. -/
theorem le_nblkOf (n : Nat) : n ≤ 128 * nblkOf n := by
  obtain rfl | hn := Nat.eq_zero_or_pos n
  · exact Nat.zero_le _
  · exact (nblkOf_ceil hn).2

/-- Section 1 of 40_framer.md: the blocks joined are the file and then pad bytes. -/
theorem chunk_flatMap_bytes (file : Nat → Byte) (n : Nat) : (chunk file n).flatMap Block.bytes =
    (List.range n).map file ++ List.replicate (128 * nblkOf n - n) Config.PAD := by
  have hn := le_nblkOf n
  have hlength : ((chunk file n).flatMap Block.bytes).length = 128 * nblkOf n := by
    rw [flatMap_bytes_length, chunk_length]
  refine List.ext_getElem? fun k => ?_
  by_cases hk : k < 128 * nblkOf n
  · have hbyte : ((chunk file n).flatMap Block.bytes)[k]? = some (if k < n then file k else Config.PAD) := by
      have hsplit : k = 128 * (k / 128) + k % 128 := (Nat.div_add_mod k 128).symm
      rw [hsplit, flatMap_bytes_getElem? _ _ (Nat.mod_lt _ (by decide)), chunk_getElem? _ _ _ (by omega),
        Option.bind_some, chunkBlock_getElem? _ _ _ (Nat.mod_lt _ (by decide)), ← hsplit]
    rw [hbyte]
    split
    case isTrue hkn => rw [List.getElem?_append_left (by simpa using hkn)]; simp [hkn]
    case isFalse hkn =>
      rw [List.getElem?_append_right (by simpa using hkn), List.getElem?_replicate, if_pos]
      simp only [List.length_map, List.length_range]
      omega
  · rw [List.getElem?_eq_none (by omega), List.getElem?_eq_none]
    simp only [List.length_append, List.length_map, List.length_range, List.length_replicate]
    omega

/-! ### The wire index -/

/-- R126: between two multiples of 255 the index counts up from 1. -/
theorem map_widx_range' (k : Nat) {n : Nat} (hn : n ≤ 255) :
    (List.range' (255 * k) n).map widx = (List.range' 1 n).map (BitVec.ofNat 8) := by
  refine List.ext_getElem (by simp) fun j hj _ => ?_
  have hj' : j < n := by simpa using hj
  have hmod : (255 * k + j) % 255 + 1 = 1 + j := by omega
  simp only [List.getElem_map, List.getElem_range', Nat.one_mul, widx, hmod]

/-! ### The checksum -/

/-- R128: two blocks with the same checksum have the same sum modulo 256. -/
theorem checksum_eq_iff (p q : Block) : checksum p = checksum q ↔
    (p.bytes.map BitVec.toNat).sum % 256 = (q.bytes.map BitVec.toNat).sum % 256 := by
  rw [← checksum_toNat, ← checksum_toNat, BitVec.toNat_inj]

/-- Section 3 of 40_framer.md: an exchange of one byte for another moves the sum by less than 256. -/
theorem sum_set_mod_ne (bs : List Byte) {k : Nat} (hk : k < bs.length) {b : Byte} (hb : b ≠ bs[k]) :
    ((bs.set k b).map BitVec.toNat).sum % 256 ≠ (bs.map BitVec.toNat).sum % 256 := by
  have hsplit : bs = bs.take k ++ bs[k] :: bs.drop (k + 1) := by simp
  have hsum : (bs.map BitVec.toNat).sum = ((bs.take k).map BitVec.toNat).sum +
      (bs[k].toNat + ((bs.drop (k + 1)).map BitVec.toNat).sum) := by
    conv_lhs => rw [hsplit, List.map_append, List.sum_append, List.map_cons, List.sum_cons]
  have hne : b.toNat ≠ bs[k].toNat := fun h => hb (BitVec.eq_of_toNat_eq h)
  have hlt := b.isLt
  have hlt' := bs[k].isLt
  rw [hsum, List.set_eq_take_append_cons_drop, if_pos hk, List.map_append, List.sum_append, List.map_cons,
    List.sum_cons]
  omega

/-! ### The obligations -/

/-- Settles O7: the fault above `FILE_LEN`, the block of each number byte by byte, and what `CHUNK` reads. -/
theorem chunkCutsTheFileIntoBlocks : Obligations.ChunkCutsTheFileIntoBlocks := by
  intro n s hcap
  refine ⟨exec_chunk_beyond hcap, fun hlen => ⟨_, exec_chunk hcap hlen, chunk_length _ _, ?_, ?_⟩⟩
  · intro i b hb
    obtain rfl := chunk_getElem?_eq_some hb
    exact ⟨rfl, fun j hj => chunkBlock_getElem? _ _ _ hj⟩
  · intro t hcap' hlen' hsame
    rw [exec_chunk hcap' hlen', chunk_congr hsame]

/-- Settles O8: the file's bytes are the first of the joined blocks, and the pad bytes the rest. -/
theorem chunkReconstructsTheFile : Obligations.ChunkReconstructsTheFile := by
  intro file n
  have hlength : ((List.range n).map file).length = n := by simp
  refine ⟨by rw [flatMap_bytes_length, chunk_length], ?_, fun b hb => ?_⟩
  · rw [chunk_flatMap_bytes, List.take_left' hlength]
  · rw [chunk_flatMap_bytes, List.drop_left' hlength] at hb
    exact List.eq_of_mem_replicate hb

/-- Settles O10: the index is the remainder plus 1; 300 blocks are one period of 255 and 45 of the next. -/
theorem wireIndexHasPeriod255 : Obligations.WireIndexHasPeriod255 := by
  refine ⟨fun a b => ?_, ?_⟩
  · rw [← BitVec.toNat_inj, widx_toNat, widx_toNat, Nat.add_right_cancel_iff]
  · have hsplit : List.range 300 = List.range' (255 * 0) 255 ++ List.range' (255 * 1) 45 :=
      List.range_eq_range'.trans (List.range'_append (s := 0) (m := 255) (n := 45) (step := 1)).symm
    rw [hsplit, List.map_append, map_widx_range' 0 le_rfl, map_widx_range' 1 (by decide), List.map_append]

/-- Settles O12: blocks that differ in one place are one block with a byte exchanged; a sum has no order. -/
theorem oneByteChangeIsDetected : Obligations.OneByteChangeIsDetected := by
  refine ⟨fun p q k hsame hdiff hsum => ?_, fun p q hperm => ?_⟩
  · have hk : k < 128 := by
      by_contra hk
      exact hdiff (by rw [List.getElem?_eq_none (by rw [p.len]; omega), List.getElem?_eq_none (by rw [q.len]; omega)])
    have hkp : k < p.bytes.length := by rwa [p.len]
    have hkq : k < q.bytes.length := by rwa [q.len]
    have hp : p.bytes = q.bytes.set k p.bytes[k] := by
      refine List.ext_getElem? fun j => ?_
      by_cases hj : j = k
      · subst hj; simp [hkp, hkq]
      · rw [List.getElem?_set_ne (Ne.symm hj), hsame j hj]
    have hne : p.bytes[k] ≠ q.bytes[k] := by
      intro h
      exact hdiff (by rw [List.getElem?_eq_getElem hkp, List.getElem?_eq_getElem hkq, h])
    rw [checksum_eq_iff, hp] at hsum
    exact sum_set_mod_ne q.bytes hkq hne hsum
  · rw [checksum_eq_iff, (hperm.map BitVec.toNat).sum_eq]

/-- Settles O14: the index is byte 1 and the payload has 128 bytes. -/
theorem frameDeterminesItsOperands : Obligations.FrameDeterminesItsOperands := by
  intro idx idx' p p' h
  rw [buildFrame_eq_cons, buildFrame_eq_cons] at h
  injection h with _ h
  injection h with hidx h
  injection h with _ h
  exact ⟨hidx, Block.ext (List.append_inj_left h (by rw [p.len, p'.len]))⟩

/-- Settles O16: the block exists, since `i` is below `NBLK`. -/
theorem frameOfUsesTheStoredBlock : Obligations.FrameOfUsesTheStoredBlock := by
  intro i s p hi hp
  have hblock : s.block? i = some p := (if_pos hi).trans hp
  refine ⟨_, ?_, rfl, exec_buildFrame _ _ _⟩
  rw [exec, execFrameOf, hblock]

end Sys2Proof.Machine
end

section
/-! The engine steps one by one (41_engine.md): what each does in its phase, what it leaves unchanged, and where it is
refused. O18 to O23, O25 and O27 to O30. -/

namespace Sys2Proof.Machine

variable {s t u : State}

/-! ### What an engine step leaves unchanged -/

@[simp] theorem elapse_phase (s : State) : (elapse s).ses.phase = s.ses.phase := by
  obtain ⟨x, e, h, -⟩ := elapse_cases s
  rw [h, State.setSes_ses]

@[simp] theorem elapse_cursor (s : State) : (elapse s).ses.cursor = s.ses.cursor := (elapse_sessionIs s).cursor_eq

@[simp] theorem elapse_par (s : State) : (elapse s).par = s.par := by
  obtain ⟨x, e, h, -⟩ := elapse_cases s
  rw [h, State.setSes_par, State.setEnv_par]

@[simp] theorem elapse_trail (s : State) : (elapse s).trail = s.trail := by
  obtain ⟨x, e, h, -⟩ := elapse_cases s
  rw [h, State.setSes_trail, State.setEnv_trail]

@[simp] theorem elapse_pending (s : State) : (elapse s).pending = s.pending := (elapse_sameLine s).1

/-- Neither what an engine step never touches has changed, nor a byte of `TRAIL`. -/
structure Spares (s t : State) : Prop where
  keeps : EngineKeeps s t
  trail : SameTrail s t

section
variable (h : Spares s t)
include h

theorem Spares.setEnv {e : Env} (hdraws : t.env.Draws e) : Spares s (t.setEnv e) where
  keeps := by
    obtain ⟨hpar, hcfg, hlocked, ⟨hfile, hblk⟩, hanswer, hagenda, hpin⟩ := h.keeps
    have hepoch := fileByte_congr (s := t) (t := t.setEnv e) rfl hdraws.fileEpoch
    exact ⟨hpar, hcfg, hlocked, ⟨fun a => (hepoch a).trans (hfile a), hblk⟩, hanswer, hdraws.agenda.trans hagenda,
      hdraws.resetPin.trans hpin⟩
  trail := fun k => (sameTrail_of (s := t) (t := t.setEnv e) rfl rfl hdraws.trailEpoch k).trans (h.trail k)

theorem Spares.setSes {x : Session} (hlen : x.trailLen = t.ses.trailLen) : Spares s (t.setSes x) :=
  ⟨h.keeps.setSes x, h.trail.setSes hlen⟩

theorem Spares.setPhase (p : Phase) : Spares s (t.setPhase p) := ⟨h.keeps, h.trail⟩

theorem Spares.setPending (ps : List Byte) : Spares s (t.setPending ps) := ⟨h.keeps, h.trail⟩

theorem Spares.setSent (ss : List (List Byte)) : Spares s (t.setSent ss) := ⟨h.keeps, h.trail⟩

theorem Spares.emit (evs : List Event) : Spares s (t.emit evs) := ⟨h.keeps, h.trail⟩

theorem Spares.askWait (k : WaitKind) (d : Rat) : Spares s (t.askWait k d) := ⟨h.keeps, h.trail⟩

theorem Spares.sleepFor (k : SleepKind) (d : Rat) : Spares s (t.sleepFor k d) := (h.askWait _ d).emit _

theorem Spares.takeFault (op : TransportOp) : Spares s (takeFault op t) :=
  (h.setSes (x := { t.ses with outcome := .fault, cause := .transportFault, phase := .done }) rfl).emit _

end

/-- What a step keeps that may draw inputs and change `ELAPSED`, but no other register and no memory. -/
structure OnlyTimePasses (s t : State) : Prop where
  spares : Spares s t
  session : SessionIs s t s.ses
  hist : t.hist = s.hist
  waits : t.waits = s.waits
  line : SameLine s t

theorem elapse_onlyTimePasses (s : State) : OnlyTimePasses s (elapse s) :=
  ⟨⟨elapse_engineKeeps s, elapse_sameTrail s⟩, elapse_sessionIs s, elapse_hist s, elapse_waits s, elapse_sameLine s⟩

/-- Drawing an input changes nothing of it. -/
theorem OnlyTimePasses.setEnv (h : OnlyTimePasses s t) {e : Env} (hdraws : t.env.Draws e) :
    OnlyTimePasses s (t.setEnv e) :=
  ⟨h.spares.setEnv hdraws, h.session, h.hist, h.waits, h.line⟩

/-- R178: of the registers a transport fault sets `OUTCOME`, `CAUSE` and `PHASE`. -/
theorem SessionIs.takeFault (h : SessionIs s t s.ses) (op : TransportOp) :
    SessionIs s (takeFault op t) { s.ses with phase := .done, outcome := .fault, cause := .transportFault } := by
  obtain ⟨hses, helapsed⟩ := h
  exact ⟨congrArg (fun y => { y with phase := .done, outcome := .fault, cause := .transportFault }) hses, helapsed⟩

/-! ### Starting a session -/

/-- R152: an `E_START` while no session runs. -/
theorem exec_eStart (hbusy : s.busy = false) : exec .eStart s = .next (startSession s) :=
  if_neg (Bool.eq_false_iff.mp hbusy)

/-- R204: an `H_START` while no session runs. -/
theorem exec_hStart (hbusy : s.busy = false) : exec .hStart s = .next (startSession s) :=
  if_neg (Bool.eq_false_iff.mp hbusy)

/-- R38: an `H_START` while a session runs. -/
theorem exec_hStart_of_busy (hbusy : s.busy = true) : exec .hStart s = .next s := if_pos hbusy

/-- Settles O18: the registers of `startSession`. -/
theorem startMakesAFreshSession : Obligations.StartMakesAFreshSession := by
  refine fun s => ⟨exec_hStart_of_busy, fun hphase => ?_⟩
  have hbusy : s.busy = false := by obtain h | h := hphase <;> exact congrArg Phase.busy h
  exact ⟨_, exec_eStart hbusy, exec_hStart hbusy, rfl, rfl, rfl, rfl, rfl, rfl, rfl, rfl, rfl, rfl, rfl, rfl,
    fileByte_congr rfl rfl, rfl, ⟨rfl, rfl⟩, rfl, rfl⟩

/-! ### An attempt -/

/-- R155, in its phase. -/
theorem exec_eSend {p : Block} (hphase : s.ses.phase = .send) (hp : s.block? s.ses.cursor = some p) :
    exec .eSend s = .next (sendAttempt p (elapse s)) := by
  rw [exec, execESend, if_pos hphase, hp]

/-- R155, R178: what an attempt does, by the transport's answers to its clear and its write. -/
theorem sendAttempt_of_answers (p : Block) {c w : Bool} {cs ws : List Bool} (hclears : s.env.clears = c :: cs)
    (hwrites : s.env.writes = w :: ws) : ∃ e, s.env.Draws e ∧ e.reads = s.env.reads ∧ e.tails = s.env.tails ∧
    (c = true → e.clears = cs ∧ e.writes = ws) ∧
    (c = false → sendAttempt p s = takeFault .rxClear (s.setEnv e)) ∧
    (c = true → w = false → sendAttempt p s = takeFault .txWrite (((s.setEnv e).setPending []).emit [.clear])) ∧
    (c = true → w = true → sendAttempt p s = frameSent (buildFrame (widx s.ses.cursor) p) (s.setEnv e)) := by
  cases c with
  | false =>
    refine ⟨{ s.env with clears := cs }, ⟨rfl, rfl, rfl, rfl⟩, rfl, rfl, nofun, fun _ => ?_, nofun, nofun⟩
    simp [sendAttempt, rxClear, drawClear, hclears]
  | true =>
    refine ⟨{ s.env with clears := cs, writes := ws }, ⟨rfl, rfl, rfl, rfl⟩, rfl, rfl, fun _ => ⟨rfl, rfl⟩, nofun,
      fun _ hw => ?_, fun _ hw => ?_⟩ <;> subst hw <;>
      simp [sendAttempt, rxClear, drawClear, txWrite, drawWrite, hclears, hwrites, frameSent] <;> rfl

/-- The inputs of the transport are those of before. -/
theorem elapse_inputs (s : State) : (elapse s).env.clears = s.env.clears ∧ (elapse s).env.writes = s.env.writes ∧
    (elapse s).env.reads = s.env.reads ∧ (elapse s).env.tails = s.env.tails := by
  obtain ⟨x, e, h, -, -, -, hinputs⟩ := elapse_cases s
  rw [h]
  exact hinputs

/-- What a step holds that asks for no wait: the registers `x`, the events `evs`, and the transport's two streams. -/
structure EndsIn (s t : State) (x : Session) (evs : List Event) (pending : List Byte) (sent : List (List Byte)) :
    Prop where
  spares : Spares s t
  waits : t.waits = s.waits
  session : SessionIs s t x
  hist : t.hist = s.hist ++ evs
  pending : t.pending = pending
  sent : t.sent = sent

/-- The registers of a session that ended in a transport fault (R178). -/
abbrev Session.faulted (x : Session) : Session :=
  { x with phase := .done, outcome := .fault, cause := .transportFault }

theorem OnlyTimePasses.fault (h : OnlyTimePasses s u) (op : TransportOp) :
    EndsIn s (takeFault op u) s.ses.faulted [.fault op] s.pending s.sent :=
  ⟨h.spares.takeFault op, h.waits, h.session.takeFault op, by rw [takeFault_hist, h.hist], h.line.1, h.line.2⟩

/-- Log entry 15: a fault of the write comes after the clear. -/
theorem OnlyTimePasses.writeFault (h : OnlyTimePasses s u) :
    EndsIn s (takeFault .txWrite ((u.setPending []).emit [.clear])) s.ses.faulted [.clear, .fault .txWrite] [] s.sent :=
  ⟨((h.spares.setPending _).emit _).takeFault _, h.waits, h.session.takeFault .txWrite, by simp [h.hist], rfl, h.line.2⟩

theorem OnlyTimePasses.frameSent (h : OnlyTimePasses s u) (f : List Byte) :
    EndsIn s (frameSent f u) { s.ses with phase := .wait } [.clear, .write f] [] (s.sent ++ [f]) where
  spares := ((((h.spares.setPending _).emit _).setSent _).emit _).setPhase _
  waits := h.waits
  session := h.session.setPhase .wait
  hist := by simp [Machine.frameSent, h.hist]
  pending := rfl
  sent := congrArg (· ++ [f]) h.line.2

theorem EndsIn.ending {x : Session} {evs : List Event} {ps : List Byte} {ss : List (List Byte)}
    (h : EndsIn s t x evs ps ss) : SessionIs s t x ∧ t.hist = s.hist ++ evs ∧ t.pending = ps ∧ t.sent = ss :=
  ⟨h.session, h.hist, h.pending, h.sent⟩

theorem EndsIn.keeping {x : Session} {evs : List Event} {ps : List Byte} {ss : List (List Byte)}
    (h : EndsIn s t x evs ps ss) : EngineKeeps s t ∧ SameTrail s t ∧ t.waits = s.waits :=
  ⟨h.spares.keeps, h.spares.trail, h.waits⟩

/-- R155, R178: the three ends of an attempt. -/
theorem sendAttempt_endsIn (s : State) (p : Block) :
    EndsIn s (sendAttempt p (elapse s)) s.ses.faulted [.fault .rxClear] s.pending s.sent ∨
    EndsIn s (sendAttempt p (elapse s)) s.ses.faulted [.clear, .fault .txWrite] [] s.sent ∨
    EndsIn s (sendAttempt p (elapse s)) { s.ses with phase := .wait }
      [.clear, .write (buildFrame (widx s.ses.cursor) p)] [] (s.sent ++ [buildFrame (widx s.ses.cursor) p]) := by
  obtain ⟨e, hdraws, -, -, h⟩ := sendAttempt_cases p (elapse s)
  have htime := (elapse_onlyTimePasses s).setEnv hdraws
  rw [elapse_cursor] at h
  obtain h | h | h := h <;> rw [h]
  · exact .inl (htime.fault .rxClear)
  · exact .inr (.inl htime.writeFault)
  · exact .inr (.inr (htime.frameSent (buildFrame (widx s.ses.cursor) p)))

/-- Settles O19: the end of the attempt by the two answers. -/
theorem sendClearsThenWritesTheFrame : Obligations.SendClearsThenWritesTheFrame := by
  intro s p cs ws c w hphase hp hclears hwrites
  obtain ⟨hc, hw, -, -⟩ := elapse_inputs s
  obtain ⟨e, hdraws, -, -, -, hclearFault, hwriteFault, hsent⟩ :=
    sendAttempt_of_answers p (hc.trans hclears) (hw.trans hwrites)
  have htime := (elapse_onlyTimePasses s).setEnv hdraws
  obtain ⟨hkeeps, htrail, hwaits⟩ : EngineKeeps s (sendAttempt p (elapse s)) ∧ SameTrail s (sendAttempt p (elapse s)) ∧
      (sendAttempt p (elapse s)).waits = s.waits := by
    obtain h | h | h := sendAttempt_endsIn s p <;> exact h.keeping
  refine ⟨_, exec_eSend hphase hp, hkeeps, htrail, hwaits, fun hc hw => ?_, fun hc => ?_, fun hc hw => ?_⟩
  · rw [hsent hc hw, elapse_cursor]
    exact (htime.frameSent _).ending
  · rw [hclearFault hc]
    exact (htime.fault .rxClear).ending
  · rw [hwriteFault hc hw]
    exact htime.writeFault.ending

/-- Settles O20: the three ends of an attempt. -/
theorem sendCompletesOnEveryAnswer : Obligations.SendCompletesOnEveryAnswer := by
  intro s p hphase hp
  refine ⟨_, exec_eSend hphase hp, ?_⟩
  obtain h | h | h := sendAttempt_endsIn s p
  · exact ⟨h.spares.keeps, h.spares.trail, h.waits, .inr ⟨h.session, h.sent, .inl ⟨h.hist, h.pending⟩⟩⟩
  · exact ⟨h.spares.keeps, h.spares.trail, h.waits, .inr ⟨h.session, h.sent, .inr ⟨h.hist, h.pending⟩⟩⟩
  · exact ⟨h.spares.keeps, h.spares.trail, h.waits, .inl ⟨h.session, h.pending, h.hist, h.sent⟩⟩

/-! ### The responses -/

/-- R158: `CURSOR` one further, `RPT` cleared. -/
theorem OnlyTimePasses.advance (h : OnlyTimePasses s u) :
    EndsIn s (advance (u.emit [.read .ack])) { s.ses with cursor := s.ses.cursor + 1, rpt := 0, phase := .pace }
      [.read .ack] s.pending s.sent := by
  obtain ⟨hses, helapsed⟩ := h.session
  exact
    { spares := (h.spares.emit _).setSes rfl
      waits := h.waits
      session := ⟨congrArg (fun y => { y with cursor := y.cursor + 1, rpt := 0, phase := .pace }) hses, helapsed⟩
      hist := congrArg (· ++ [Event.read .ack]) h.hist
      pending := h.line.1
      sent := h.line.2 }

/-- Settles O21: the step offered by name and the item are one response. -/
theorem ackAdvancesTheCursor : Obligations.AckAdvancesTheCursor := by
  intro s hphase
  obtain ⟨hitem, hstep⟩ := exec_response (r := .ack) hphase rfl
  have hend := (elapse_onlyTimePasses s).advance
  exact ⟨_, hstep, hitem, hend.session, hend.hist, hend.waits, hend.spares.keeps, hend.spares.trail,
    hend.pending, hend.sent⟩

/-- R162: the test is made with the incremented `RPT`, and the registers follow it. -/
theorem OnlyTimePasses.negative (h : OnlyTimePasses s u) (r : Response) :
    (s.cfg.retryCeiling < s.ses.rpt + 1 → EndsIn s (negative (u.emit [.read r]))
      { s.ses with rpt := s.ses.rpt + 1, outcome := .aborted, cause := .retryExhausted, phase := .drain }
      [.read r] s.pending s.sent) ∧
    (s.ses.rpt + 1 ≤ s.cfg.retryCeiling → EndsIn s (negative (u.emit [.read r]))
      { s.ses with rpt := s.ses.rpt + 1, phase := .backoff } [.read r] s.pending s.sent) := by
  obtain ⟨hses, helapsed⟩ := h.session
  obtain ⟨-, hcfg, -⟩ := h.spares.keeps
  have hrpt : u.ses.rpt = s.ses.rpt := by rw [hses]
  have hhist : u.hist ++ [.read r] = s.hist ++ [.read r] := by rw [h.hist]
  refine ⟨fun hceiling => ?_, fun hceiling => ?_⟩
  · have hsession := congrArg (fun y : Session =>
      { y with rpt := y.rpt + 1, outcome := .aborted, cause := .retryExhausted, phase := .drain }) hses
    rw [Machine.negative, if_pos (by simpa [hrpt, hcfg] using hceiling)]
    exact ⟨(h.spares.emit _).setSes rfl, h.waits, ⟨hsession, helapsed⟩, hhist, h.line.1, h.line.2⟩
  · have hsession := congrArg (fun y : Session => { y with rpt := y.rpt + 1, phase := .backoff }) hses
    rw [Machine.negative, if_neg (by simpa [hrpt, hcfg] using hceiling)]
    exact ⟨(h.spares.emit _).setSes rfl, h.waits, ⟨hsession, helapsed⟩, hhist, h.line.1, h.line.2⟩

/-- R159 to R162: a response that is no ACK is a negative signal of its class. -/
theorem negativeSignal {i : Instr} {r : Response} (hr : r ≠ .ack) (h : exec i s = .next (takeResponse r s)) :
    NegativeSignal i r s := by
  obtain ⟨habort, hretry⟩ := (elapse_onlyTimePasses s).negative r
  have hresponse : takeResponse r s = negative ((elapse s).emit [.read r]) := by
    rw [takeResponse_of_ne_ack hr, negative_emit]
  rw [← hresponse] at habort hretry
  have hboth : (takeResponse r s).hist = s.hist ++ [.read r] ∧ (takeResponse r s).waits = s.waits ∧
      EngineKeeps s (takeResponse r s) ∧ SameTrail s (takeResponse r s) ∧ SameLine s (takeResponse r s) := by
    obtain hceiling | hceiling := Nat.lt_or_ge s.cfg.retryCeiling (s.ses.rpt + 1)
    · have hend := habort hceiling
      exact ⟨hend.hist, hend.waits, hend.spares.keeps, hend.spares.trail,
    hend.pending, hend.sent⟩
    · have hend := hretry hceiling
      exact ⟨hend.hist, hend.waits, hend.spares.keeps, hend.spares.trail,
    hend.pending, hend.sent⟩
  exact ⟨takeResponse r s, h, fun hceiling => (habort hceiling).session, fun hceiling => (hretry hceiling).session,
    hboth⟩

/-- Settles O22: the negative classes by `negativeSignal`, the end of a session by `exec_of_ending`. -/
theorem negativeSignalCountsOrAborts : Obligations.NegativeSignalCountsOrAborts := by
  refine ⟨fun s hphase => ?_, fun i s t hphase hestart hhstart hreset h =>
    exec_of_ending hphase hestart hhstart hreset h⟩
  have hsignal : ∀ r : Response, r ≠ .ack → r.lineItem.wellFormed s.par = true →
      NegativeSignal r.engineStep r s ∧ NegativeSignal r.lineItem r s := fun r hr hwf =>
    ⟨negativeSignal hr (exec_response hphase hwf).2, negativeSignal hr (exec_response hphase hwf).1⟩
  obtain ⟨hnak, hnak'⟩ := hsignal .nak nofun rfl
  obtain ⟨htimeout, htimeout'⟩ := hsignal .timeout nofun rfl
  exact ⟨hnak, hnak', htimeout, htimeout', fun b hack hother =>
    hsignal (.other b) nofun ((isNoise_iff b).mpr ⟨hack, hother⟩)⟩

/-! ### Items of the line outside the response read -/

/-- R211: a write of a frame. -/
theorem exec_txWrite_buildFrame (idx : Byte) (p : Block) (s : State) :
    exec (.txWrite (buildFrame idx p)) s = .next (runTxWrite (buildFrame idx p) s) :=
  if_pos (buildFrame_isFrame idx p)

/-- R63, R90: a frame on the line is a write of its bytes. -/
theorem exec_frame (idx : Byte) (p : Block) (s : State) :
    exec (.frame idx p) s = .next (runTxWrite (buildFrame idx p) s) := by
  rw [← frameLayout_eq_buildFrame]
  rfl

/-- Settles O23: the write of the frame's bytes, and the control bytes outside `WAIT`. -/
theorem lineItemsOutsideTheResponseRead : Obligations.LineItemsOutsideTheResponseRead := by
  refine ⟨fun idx p s => ⟨_, exec_frame idx p s, exec_txWrite_buildFrame idx p s⟩, fun s hphase => ?_⟩
  refine ⟨if_neg hphase, if_neg hphase, fun b hack hnak => ?_, if_neg hphase⟩
  exact (if_pos ((isNoise_iff b).mpr ⟨hack, hnak⟩)).trans (if_neg hphase)

/-! ### The random input -/

/-- Settles O25: a fraction `a / (a + b + 1)`; a rational below 1 has a numerator below its denominator. -/
theorem randomInputFillsTheUnitRange : Obligations.RandomInputFillsTheUnitRange := by
  refine ⟨fun u => ?_, fun q hq0 hq1 => ?_⟩
  · have hpos : (0 : Rat) < ((u.a + u.b + 1 : Nat) : Rat) := by positivity
    have hlt : (u.a : Rat) < ((u.a + u.b + 1 : Nat) : Rat) := by
      exact_mod_cast Nat.lt_succ_of_le (Nat.le_add_right u.a u.b)
    exact ⟨div_nonneg (Nat.cast_nonneg _) hpos.le, (div_lt_one hpos).mpr hlt⟩
  · obtain ⟨n, hn⟩ := Int.eq_ofNat_of_zero_le (Rat.num_nonneg.mpr hq0)
    have hlt : n < q.den := by
      have h := Rat.num_lt_denom_iff.mpr hq1
      omega
    have hden : n + (q.den - 1 - n) + 1 = q.den := by omega
    refine ⟨⟨n, q.den - 1 - n⟩, ?_⟩
    rw [Rand.val, hden]
    conv_rhs => rw [← Rat.num_div_den q, hn]
    rfl

/-! ### The trailing read -/

/-- R175, in its phase. -/
theorem exec_eDrain (hphase : s.ses.phase = .drain) : exec .eDrain s = .next (drainTail (elapse s)) := if_pos hphase

/-- R175: the final wait and the trailing read's own bound, asked of the time base, and the event of the sleep. -/
abbrev State.askTail (s : State) : State := (s.sleepFor .final s.cfg.finalWait).askWait .read 0

/-- R175, R178: what the trailing read does, by what it meets. -/
theorem drainTail_of_tails {x : Option (List Byte)} {xs : List (Option (List Byte))} (htails : s.env.tails = x :: xs) :
    ∃ e, s.env.Draws e ∧ (x = none → drainTail s = takeFault .rxRead (s.setEnv e).askTail) ∧
      ∀ bs, x = some bs → drainTail s = storeTail ((s.pending ++ bs).take s.par.trailCap)
        ((s.setEnv e).askTail.setPending ((s.pending ++ bs).drop s.par.trailCap)) := by
  refine ⟨{ s.env with tails := xs }, ⟨rfl, rfl, rfl, rfl⟩, fun hx => ?_, fun bs hx => ?_⟩ <;> subst hx <;>
    simp [drainTail, rxRead, drawArrivals, drawTail, htails] <;> rfl

/-- What the trailing read holds at its end, whether it succeeds or not. -/
structure Drained (s t : State) (x : Session) (ev : Event) (pending : List Byte) : Prop where
  keeps : EngineKeeps s t
  waits : t.waits = s.waits ++ [⟨.sleep .final, s.cfg.finalWait⟩, ⟨.read, 0⟩]
  session : SessionIs s t x
  hist : t.hist = s.hist ++ [.sleep .final, ev]
  pending : t.pending = pending
  sent : t.sent = s.sent

theorem OnlyTimePasses.askTail_waits (h : OnlyTimePasses s u) :
    u.askTail.waits = s.waits ++ [⟨.sleep .final, s.cfg.finalWait⟩, ⟨.read, 0⟩] := by
  obtain ⟨-, hcfg, -⟩ := h.spares.keeps
  simp [h.waits, hcfg]

/-- R178: a fault of the trailing read. -/
theorem OnlyTimePasses.tailFault (h : OnlyTimePasses s u) :
    Drained s (takeFault .rxRead u.askTail) s.ses.faulted (.fault .rxRead) s.pending :=
  ⟨(((h.spares.sleepFor _ _).askWait _ _).takeFault _).keeps, h.askTail_waits, h.session.takeFault .rxRead,
    by simp [h.hist], h.line.1, h.line.2⟩

@[simp] theorem storeTail_ses (tl : List Byte) (s : State) : (storeTail tl s).ses =
    { s.ses with trailLen := BitVec.ofNat 16 tl.length, phase := .done } := rfl

theorem EngineKeeps.storeTail (h : EngineKeeps s t) (tl : List Byte) : EngineKeeps s (storeTail tl t) := by
  obtain ⟨hpar, hcfg, hlocked, ⟨hfile, hblk⟩, hanswer, hagenda, hpin⟩ := h
  exact ⟨hpar, hcfg, hlocked, ⟨fun a => (fileByte_congr rfl rfl a).trans (hfile a), hblk⟩, hanswer, hagenda, hpin⟩

/-- R175: the trailing bytes stored. -/
theorem OnlyTimePasses.tailStored (h : OnlyTimePasses s u) (tl ps : List Byte) :
    Drained s (storeTail tl (u.askTail.setPending ps))
      { s.ses with trailLen := BitVec.ofNat 16 tl.length, phase := .done } (.drain tl) ps where
  keeps := (((h.spares.sleepFor _ _).askWait _ _).setPending _).keeps.storeTail tl
  waits := h.askTail_waits
  session := by
    obtain ⟨hses, helapsed⟩ := h.session
    refine ⟨?_, helapsed⟩
    rw [storeTail_ses, State.setPending_ses, State.askWait_ses, State.sleepFor_ses, hses]
  hist := by simp [storeTail, h.hist]
  pending := rfl
  sent := by simp [storeTail, h.line.2]

/-- R9: what is stored has a length that fits `TRAIL_LEN`. -/
theorem length_take_trailCap_lt (bs : List Byte) (cap : Fin 65536) : (bs.take cap).length < 2 ^ 16 :=
  (List.length_take_le _ _).trans_lt cap.isLt

/-- Settles O27: the end of the trailing read by what it meets, and the bytes of `TRAIL` by their addresses. -/
theorem drainStoresTheTrailingBytes : Obligations.DrainStoresTheTrailingBytes := by
  intro s x xs hphase htails
  obtain ⟨e, hdraws, hfault, hstored⟩ := drainTail_of_tails ((elapse_inputs s).2.2.2.trans htails)
  have htime := (elapse_onlyTimePasses s).setEnv hdraws
  refine ⟨_, exec_eDrain hphase, ?_⟩
  cases x with
  | none =>
    have hend := htime.tailFault
    rw [hfault rfl]
    exact ⟨hend.keeps, hend.sent, hend.waits, nofun,
      fun _ => ⟨hend.session, htime.spares.trail, hend.hist, hend.pending⟩⟩
  | some bs =>
    have hend := htime.tailStored ((s.pending ++ bs).take s.par.trailCap) ((s.pending ++ bs).drop s.par.trailCap)
    rw [hstored bs rfl, elapse_pending, elapse_par]
    refine ⟨hend.keeps, hend.sent, hend.waits, fun bs' hbs => ?_, nofun⟩
    obtain rfl := Option.some.inj hbs
    refine ⟨hend.session, fun k b hb => ?_, fun k hk => ?_, hend.hist, hend.pending⟩
    · exact storeTail_trailByte _ _ (length_take_trailCap_lt _ _) k b hb
    · show Memory.read (Memory.writeBytes 0 _ (elapse s).trail) k = _
      rw [Memory.read_writeBytes, if_pos (Nat.zero_le k), Nat.sub_zero, List.getElem?_eq_none hk, Option.none_or,
        elapse_trail]

/-- Settles O28: the two ends of the trailing read. -/
theorem drainCompletesOnEveryAnswer : Obligations.DrainCompletesOnEveryAnswer := by
  intro s hphase
  refine ⟨_, exec_eDrain hphase, ?_⟩
  obtain ⟨e, hdraws, h | ⟨bs, h⟩⟩ := drainTail_cases (elapse s) <;> rw [h] <;>
    have htime := (elapse_onlyTimePasses s).setEnv hdraws
  · have hend := htime.tailFault
    exact ⟨hend.keeps, hend.sent, .inr ⟨hend.session, htime.spares.trail, hend.hist⟩⟩
  · have hend := htime.tailStored (((elapse s).pending ++ bs).take (elapse s).par.trailCap)
      (((elapse s).pending ++ bs).drop (elapse s).par.trailCap)
    refine ⟨hend.keeps, hend.sent, .inl ⟨_, ?_, hend.session, ?_, hend.hist⟩⟩
    · rw [elapse_par]
      exact List.length_take_le _ _
    · exact storeTail_trailBytes _ _ (length_take_trailCap_lt _ _)

/-! ### Transport faults by name -/

/-- R178, of an operation of the phase's step. -/
theorem exec_eFault {op : TransportOp} {v : State} (h : beforeFault op (elapse s) = some v) :
    exec (.eFault op) s = .next (takeFault op v) := by
  rw [exec, execEFault, h]

/-- Settles O29: each operation in its phase, after the events that come before its fault. -/
theorem transportFaultEndsTheSession : Obligations.TransportFaultEndsTheSession := by
  intro s op before h
  have htime := elapse_onlyTimePasses s
  obtain ⟨hphase, rfl, rfl⟩ | ⟨hphase, rfl, rfl⟩ | ⟨hphase, rfl, rfl⟩ | ⟨hphase, rfl, rfl⟩ := h
  · have hbefore : beforeFault .rxClear (elapse s) = some (elapse s) := by simp [beforeFault, hphase]
    obtain ⟨hspares, -, hsession, hhist, hpending, hsent⟩ := htime.fault .rxClear
    exact ⟨_, exec_eFault hbefore, hsession, by rw [hhist, List.append_nil], hspares.keeps, hspares.trail, hsent,
      fun _ => hpending, nofun⟩
  · have hbefore : beforeFault .txWrite (elapse s) = some (((elapse s).setPending []).emit [.clear]) := by
      simp [beforeFault, hphase]
    obtain ⟨hspares, -, hsession, hhist, hpending, hsent⟩ := htime.writeFault
    exact ⟨_, exec_eFault hbefore, hsession, by rw [hhist, List.append_assoc]; rfl, hspares.keeps, hspares.trail, hsent,
      nofun, fun _ => hpending⟩
  · have hbefore : beforeFault .rxRead (elapse s) = some (elapse s) := by simp [beforeFault, hphase]
    obtain ⟨hspares, -, hsession, hhist, hpending, hsent⟩ := htime.fault .rxRead
    exact ⟨_, exec_eFault hbefore, hsession, by rw [hhist, List.append_nil], hspares.keeps, hspares.trail, hsent,
      fun _ => hpending, nofun⟩
  · have hbefore : beforeFault .rxRead (elapse s) = some (elapse s).askTail := by
      simp only [beforeFault, elapse_phase, hphase]
    obtain ⟨hkeeps, -, hsession, hhist, hpending, hsent⟩ := htime.tailFault
    exact ⟨_, exec_eFault hbefore, hsession, by rw [hhist, List.append_assoc]; rfl, hkeeps, htime.spares.trail, hsent,
      fun _ => hpending, nofun⟩

/-! ### Steps that are not enabled -/

/-- R178: an operation that is none of the phase's step does not fault there. -/
theorem beforeFault_eq_none {op : TransportOp}
    (h : ¬(s.ses.phase = .send ∧ (op = .rxClear ∨ op = .txWrite) ∨ s.ses.phase = .wait ∧ op = .rxRead ∨
      s.ses.phase = .drain ∧ op = .rxRead)) : beforeFault op s = none := by
  unfold beforeFault
  split <;> simp_all

/-- Settles O30: each guard of an engine step, where it is false. -/
theorem disabledEngineStepIsRefused : Obligations.DisabledEngineStepIsRefused := by
  refine fun s => ⟨fun h => if_pos h, fun h => if_neg h, fun h => ⟨if_neg h, if_neg h, if_neg h, fun b hack hnak => ?_⟩,
    fun h u => if_neg h, fun h => if_neg h, fun h => if_neg h, fun op h => ?_⟩
  · exact (if_pos ((isNoise_iff b).mpr ⟨hack, hnak⟩)).trans (if_neg h)
  · rw [exec, execEFault, beforeFault_eq_none (by simpa using h)]

end Sys2Proof.Machine
end

section
/-! The host operations and the transport operations (42_host_transport.md): what each answers and what it leaves
unchanged, while a session runs and otherwise. O17, O31 to O33, O35, O36 and O38 to O42. -/

namespace Sys2Proof.Machine

variable {s : State}

/-! ### Reset -/

/-- Settles O31: the registers of `resetBlock`, and the reset input before any turn. -/
theorem resetPutsEveryRegisterAtItsValue : Obligations.ResetPutsEveryRegisterAtItsValue := by
  refine fun s => ⟨resetBlock s, rfl, rfl, rfl, rfl, rfl, rfl, rfl, State.reset_statusWord, rfl, fun _ => rfl,
    fun _ => rfl, fun _ => rfl, ⟨rfl, rfl⟩, rfl, fun hpin => ?_⟩
  rw [step, choose, if_pos hpin]

/-- Settles O32: the record `State.reset`. -/
theorem resetStateValues : Obligations.ResetStateValues :=
  ⟨rfl, rfl, rfl, rfl, rfl, rfl, rfl, rfl, rfl⟩

/-! ### Writing the file -/

/-- R38, R202: a load while a session runs. -/
theorem exec_hLoad_of_busy (hbusy : s.busy = true) (l : Load) : exec (.hLoad l) s = .next s := by
  rw [exec, execHLoad.eq_def, if_pos hbusy]

/-- R202: the whole file, while no session runs. -/
theorem exec_hLoad_whole (hbusy : s.busy = false) {bs : List Byte} (hlen : bs.length ≤ s.par.fileCap) :
    exec (.hLoad (.whole bs)) s = .next (loadWhole bs s) :=
  (if_neg (Bool.eq_false_iff.mp hbusy)).trans (if_pos hlen)

/-- Log entry 21: one byte, while no session runs. -/
theorem exec_hLoad_byte (hbusy : s.busy = false) {a : Nat} (ha : a < s.par.fileCap) (b : Byte) :
    exec (.hLoad (.byte a b)) s = .next (loadByte a b s) :=
  (if_neg (Bool.eq_false_iff.mp hbusy)).trans (if_pos ha)

/-- Log entry 13: a byte beyond `FILE_CAP`. -/
theorem exec_hLoad_byte_beyond (hbusy : s.busy = false) {a : Nat} (ha : s.par.fileCap ≤ a) (b : Byte) :
    exec (.hLoad (.byte a b)) s = .fault (.noSuchFileByte a) :=
  (if_neg (Bool.eq_false_iff.mp hbusy)).trans (if_neg ha.not_gt)

/-- R35, log entry 21: the length alone, while no session runs. -/
theorem exec_hLoad_length (hbusy : s.busy = false) (n : Nat) : exec (.hLoad (.length n)) s = .next (loadLength n s) :=
  if_neg (Bool.eq_false_iff.mp hbusy)

/-- The bytes of a whole file from address 0 on, and the old ones after them. -/
theorem loadWhole_fileByte (bs : List Byte) (s : State) (a : Nat) :
    (loadWhole bs s).fileByte a = bs[a]?.getD (s.fileByte a) := by
  show (Memory.read (Memory.writeBytes 0 bs s.file) a).getD _ = _
  rw [Memory.read_writeBytes, if_pos (Nat.zero_le a), Nat.sub_zero]
  cases bs[a]? <;> rfl

theorem loadByte_fileByte (a k : Nat) (b : Byte) (s : State) :
    (loadByte a b s).fileByte k = if k = a then b else s.fileByte k := by
  show (Memory.read (Memory.write a b s.file) k).getD _ = _
  rw [Memory.read_write]
  split <;> rfl

/-- Settles O33: the three forms, by what they do to the bytes of `FILE` and to `FILE_LEN`. -/
theorem loadWritesTheFile : Obligations.LoadWritesTheFile := by
  refine fun s => ⟨exec_hLoad_of_busy, fun hbusy =>
    ⟨fun bs hlen => ?_, fun a b ha => ?_, fun n hn => ?_, fun n hn => ?_⟩⟩
  · refine ⟨_, exec_hLoad_whole hbusy hlen, fun k b hb => ?_, fun a ha => ?_, rfl, rfl⟩
    · rw [loadWhole_fileByte, hb, Option.getD_some]
    · rw [loadWhole_fileByte, List.getElem?_eq_none ha, Option.getD_none]
  · refine ⟨_, exec_hLoad_byte hbusy ha b, ?_, fun k hk => ?_, rfl⟩
    · rw [loadByte_fileByte, if_pos rfl]
    · rw [loadByte_fileByte, if_neg hk]
  · rw [exec_hLoad_length hbusy, loadLength, if_pos hn]
    rfl
  · rw [exec_hLoad_length hbusy, loadLength, if_neg hn.not_ge]

/-- Settles O35: each of the host's writes begins with the test of `BUSY`. -/
theorem hostWritesAreIgnoredWhileBusy : Obligations.HostWritesAreIgnoredWhileBusy := fun _ hbusy =>
  ⟨exec_hLoad_of_busy hbusy, exec_hCfg_of_busy hbusy, exec_hStart_of_busy hbusy⟩

/-! ### Reading -/

/-- R60: a byte of `FILE` by name. -/
theorem exec_hStatus_file {a : Nat} (ha : a < s.par.fileCap) :
    exec (.hStatus (.reg (.file a))) s = .next (s.respond (.reg (.byte (s.fileByte a)))) := if_pos ha

/-- R62: a byte of `TRAIL` by name. -/
theorem exec_hStatus_trail {k : Nat} (hk : k < s.par.trailCap) :
    exec (.hStatus (.reg (.trail k))) s = .next (s.respond (.reg (.byte (s.trailByte k)))) := if_pos hk

/-- Settles O17: each access begins with the test of its bound. -/
theorem locationsThatDoNotExistFault : Obligations.LocationsThatDoNotExistFault := by
  refine fun s => ⟨fun i hi => ?_, fun a b hbusy ha => exec_hLoad_byte_beyond hbusy ha b, fun a ha => if_neg ha.not_gt,
    fun k hk => if_neg hk.not_gt⟩
  have hblock : s.block? i = none := if_neg hi.not_gt
  rw [exec, execFrameOf, hblock]

/-- Settles O36: the poll, and the reads by name, register by register. -/
theorem statusIsReadWithoutSideEffect : Obligations.StatusIsReadWithoutSideEffect := by
  refine fun s => ⟨rfl, fun r n h => ?_, fun r d h => ?_, fun a ha => exec_hStatus_file ha,
    fun k hk => exec_hStatus_trail hk⟩
  · simp only [List.mem_cons, Prod.mk.injEq, List.not_mem_nil, or_false] at h
    rcases h with ⟨rfl, rfl⟩ | ⟨rfl, rfl⟩ | ⟨rfl, rfl⟩ | ⟨rfl, rfl⟩ | ⟨rfl, rfl⟩ | ⟨rfl, rfl⟩ | ⟨rfl, rfl⟩ |
      ⟨rfl, rfl⟩ | ⟨rfl, rfl⟩ | ⟨rfl, rfl⟩ | ⟨rfl, rfl⟩ <;> rfl
  · simp only [List.mem_cons, Prod.mk.injEq, List.not_mem_nil, or_false] at h
    rcases h with ⟨rfl, rfl⟩ | ⟨rfl, rfl⟩ | ⟨rfl, rfl⟩ | ⟨rfl, rfl⟩ | ⟨rfl, rfl⟩ <;> rfl

/-- Settles O39: the summary field by field. -/
theorem resultReportsTheSession : Obligations.ResultReportsTheSession := fun _ => rfl

/-! ### The source's state -/

/-- R31: the phases in which `OUTCOME` is `NONE`. -/
theorem Phase.open_iff (p : Phase) :
    p.open = true ↔ p = .idle ∨ p = .send ∨ p = .wait ∨ p = .backoff ∨ p = .pace := by
  cases p <;> decide

/-- R31: `STATE` in `DRAIN` and `DONE` is a matter of `OUTCOME`. -/
theorem sourceState_of_ended (h : s.ses.phase = .drain ∨ s.ses.phase = .done) :
    s.sourceState = terminalState s.ses.phase s.ses.outcome := by
  obtain h | h := h <;> rw [State.sourceState, h]

/-- R31: in good states only `IDLE` has no state. -/
theorem sourceState_eq_none_iff (h : s.SessionOk) : s.sourceState = none ↔ s.ses.phase = .idle := by
  have hnone := h.outcome_none
  have hdrain := h.drain_outcome
  unfold State.sourceState
  cases hphase : s.ses.phase <;> simp only [hphase] at hnone hdrain
  case drain => cases houtcome : s.ses.outcome <;> simp_all [terminalState, Phase.open]
  case done => cases houtcome : s.ses.outcome <;> simp_all [terminalState, Phase.open]
  all_goals simp

/-- Settles O38: the function phase by phase, and what a good state excludes. -/
theorem sourceStateFollowsPhaseAndOutcome : Obligations.SourceStateFollowsPhaseAndOutcome := by
  refine fun s => ⟨?_, ?_, fun hphase houtcome => ?_, fun hphase houtcome => ?_, fun hphase houtcome => ?_, ?_,
    fun hgood => ⟨hgood.session.outcome_none.trans s.ses.phase.open_iff, fun ⟨hdrain, hfault⟩ => ?_,
      sourceState_eq_none_iff hgood.session⟩⟩
  · rintro (h | h | h) <;> rw [State.sourceState, h]
  · intro h
    rw [State.sourceState, h]
  · rw [sourceState_of_ended hphase, houtcome]
    rfl
  · rw [sourceState_of_ended hphase, houtcome]
    rfl
  · rw [sourceState_of_ended (.inr hphase), houtcome, hphase]
    rfl
  · intro h
    rw [State.sourceState, h]
  · exact hgood.session.drain_outcome hdrain hfault

end Sys2Proof.Machine
end

section
/-! The transport operations offered by name (R210 to R213): what each answers, and that it touches the transport only.
O40 to O42. -/

namespace Sys2Proof.Machine

variable {s t : State}

/-! ### What a transport operation leaves unchanged -/

theorem Env.Draws.transportKeeps {e : Env} (h : s.env.Draws e) : TransportKeeps s (s.setEnv e) :=
  ⟨rfl, rfl, rfl, rfl, sameStores_of rfl h.fileEpoch rfl, sameTrail_of rfl rfl h.trailEpoch, rfl, h.agenda, h.resetPin⟩

theorem TransportKeeps.setPending (h : TransportKeeps s t) (ps : List Byte) : TransportKeeps s (t.setPending ps) := h

theorem TransportKeeps.setSent (h : TransportKeeps s t) (ss : List (List Byte)) : TransportKeeps s (t.setSent ss) := h

theorem TransportKeeps.respond (h : TransportKeeps s t) (a : Answer) : TransportKeeps s (t.respond a) := h

theorem TransportKeeps.of_askWait {k : WaitKind} {d : Rat} (h : TransportKeeps (s.askWait k d) t) :
    TransportKeeps s t := h

/-- The answer of an operation that succeeds or fails says which. -/
theorem answer_eq_success_iff (b : Bool) :
    (if b = true then Answer.success else .transportFault) = .success ↔ b = true := by
  cases b <;> simp

/-! ### Writes -/

/-- R211: whether a write succeeds is the transport's next answer. -/
theorem txWrite_fst_of_writes {w : Bool} {ws : List Bool} (h : s.env.writes = w :: ws) (f : List Byte) :
    (txWrite f s).1 = w := by
  simp only [txWrite, drawWrite, h]
  cases w <;> rfl

/-- R211: a write offered by name, whatever the transport answers. -/
theorem runTxWrite_cases (f : List Byte) (s : State) :
    TransportKeeps s (runTxWrite f s) ∧ (runTxWrite f s).waits = s.waits ∧ (runTxWrite f s).pending = s.pending ∧
    ((runTxWrite f s).answer = .success ∧ (runTxWrite f s).sent = s.sent ++ [f] ∨
      (runTxWrite f s).answer = .transportFault ∧ (runTxWrite f s).sent = s.sent) := by
  obtain ⟨e, hdraws, -, -, -, h | h⟩ := txWrite_cases f s <;> rw [runTxWrite, h]
  · exact ⟨(hdraws.transportKeeps.setSent _).respond _, rfl, rfl, .inl ⟨rfl, rfl⟩⟩
  · exact ⟨hdraws.transportKeeps.respond _, rfl, rfl, .inr ⟨rfl, rfl⟩⟩

/-- Settles O40: a write of a frame, and the refusal of any other bytes. -/
theorem writeSendsTheBytesOrFaults : Obligations.WriteSendsTheBytesOrFaults := by
  refine fun s f => ⟨?_, fun hno => ?_⟩
  · rintro idx p rfl
    obtain ⟨hkeeps, hwaits, hpending, hanswer⟩ := runTxWrite_cases (buildFrame idx p) s
    refine ⟨_, exec_txWrite_buildFrame idx p s, hkeeps, hwaits, hpending, hanswer, fun w ws hw => ?_⟩
    rw [← txWrite_fst_of_writes hw (buildFrame idx p)]
    exact answer_eq_success_iff _
  · exact if_neg fun hframe => hno ((isFrame_iff f).mp hframe)

/-! ### Reads -/

/-- R212, of a duration. -/
theorem exec_rxRead {d : Rat} (hd : 0 ≤ d) (n : Nat) (s : State) : exec (.rxRead n d) s =
    .next ((rxRead (readUse n) n d s).2.respond (readAnswer (rxRead (readUse n) n d s).1)) :=
  if_pos (decide_eq_true hd)

/-- R212: a read that bytes reach. -/
theorem rxRead_of_some {k : ReadUse} {d : Rat} {bs : List Byte} {u : State} (n : Nat)
    (h : drawArrivals k (s.askWait .read d) = (some bs, u)) :
    rxRead k n d s = (some ((s.pending ++ bs).take n), u.setPending ((s.pending ++ bs).drop n)) := by
  obtain ⟨e, he, -⟩ := drawArrivals_env k (s.askWait .read d)
  rw [h] at he
  obtain rfl : u = _ := he
  simp only [rxRead, h]
  rfl

/-- R212: a read that the transport fails. -/
theorem rxRead_of_none {k : ReadUse} {d : Rat} {u : State} (n : Nat)
    (h : drawArrivals k (s.askWait .read d) = (none, u)) : rxRead k n d s = (none, u) ∧ u.pending = s.pending := by
  obtain ⟨e, he, -⟩ := drawArrivals_env k (s.askWait .read d)
  rw [h] at he
  obtain rfl : u = _ := he
  simp only [rxRead, h]
  exact ⟨trivial, rfl⟩

/-- Log entry 20: a read of one byte, and any other, have inputs of their own. -/
theorem drawArrivals_of_inputs {n : Nat} {x : Option (List Byte)} {xs : List (Option (List Byte))} (d : Rat)
    (h : n = 1 ∧ s.env.reads = x :: xs ∨ n ≠ 1 ∧ s.env.tails = x :: xs) :
    ∃ u, drawArrivals (readUse n) (s.askWait .read d) = (x, u) := by
  obtain ⟨hn, h⟩ | ⟨hn, h⟩ := h
  · rw [readUse, if_pos hn]
    simp only [drawArrivals, drawRead, State.askWait_env, h]
    exact ⟨_, rfl⟩
  · rw [readUse, if_neg hn]
    simp only [drawArrivals, drawTail, State.askWait_env, h]
    exact ⟨_, rfl⟩

/-- R212: a read leaves everything but the pending input, the inputs and the waits asked for. -/
theorem rxRead_keeps (k : ReadUse) (n : Nat) (d : Rat) (s : State) :
    TransportKeeps s (rxRead k n d s).2 ∧ (rxRead k n d s).2.sent = s.sent ∧
      (rxRead k n d s).2.waits = s.waits ++ [⟨.read, d⟩] := by
  obtain ⟨e, hdraws, -, -, h | ⟨bs, h⟩⟩ := rxRead_cases k n d s <;> rw [h]
  · exact ⟨.of_askWait (k := .read) (d := d) (Env.Draws.transportKeeps hdraws), rfl, rfl⟩
  · exact ⟨.of_askWait (k := .read) (d := d) ((Env.Draws.transportKeeps hdraws).setPending ((s.pending ++ bs).drop n)),
      rfl, rfl⟩

/-- Settles O41: the read by what it meets, and what it meets by the inputs. -/
theorem readTakesThePendingBytes : Obligations.ReadTakesThePendingBytes := by
  intro s n d hd
  obtain ⟨hkeeps, hsent, hwaits⟩ := rxRead_keeps (readUse n) n d s
  have hsome : ∀ bs u, drawArrivals (readUse n) (s.askWait .read d) = (some bs, u) →
      readAnswer (rxRead (readUse n) n d s).1 = .received ((s.pending ++ bs).take n) ∧
        (rxRead (readUse n) n d s).2.pending = (s.pending ++ bs).drop n := by
    intro bs u h
    rw [rxRead_of_some n h]
    exact ⟨rfl, rfl⟩
  have hnone : ∀ u, drawArrivals (readUse n) (s.askWait .read d) = (none, u) →
      readAnswer (rxRead (readUse n) n d s).1 = .transportFault ∧ (rxRead (readUse n) n d s).2.pending = s.pending := by
    intro u h
    obtain ⟨hread, hpending⟩ := rxRead_of_none n h
    rw [hread]
    exact ⟨rfl, hpending⟩
  refine ⟨_, exec_rxRead hd n s, hkeeps.respond _, hsent, hwaits, hsome, hnone, fun bs xs h => ?_, fun xs h => ?_⟩
  · obtain ⟨u, hu⟩ := drawArrivals_of_inputs d h
    exact hsome bs u hu
  · obtain ⟨u, hu⟩ := drawArrivals_of_inputs d h
    exact hnone u hu

/-! ### Clears -/

/-- R213: whether a clear succeeds is the transport's next answer. -/
theorem rxClear_fst_of_clears {c : Bool} {cs : List Bool} (h : s.env.clears = c :: cs) : (rxClear s).1 = c := by
  simp only [rxClear, drawClear, h]
  cases c <;> rfl

/-- Settles O42: the two results of a clear, and the transport's answer that says which. -/
theorem clearEmptiesThePendingInput : Obligations.ClearEmptiesThePendingInput := by
  intro s
  refine ⟨(rxClear s).2.respond (if (rxClear s).1 then .success else .transportFault), rfl, ?_⟩
  have hanswer : ∀ c cs, s.env.clears = c :: cs →
      ((if (rxClear s).1 = true then Answer.success else .transportFault) = .success ↔ c = true) := by
    intro c cs hc
    rw [← rxClear_fst_of_clears hc]
    exact answer_eq_success_iff _
  obtain ⟨e, hdraws, -, -, -, h | h⟩ := rxClear_cases s <;> rw [h] at hanswer ⊢
  · exact ⟨(hdraws.transportKeeps.setPending _).respond _, rfl, rfl, .inl ⟨rfl, rfl⟩, hanswer⟩
  · exact ⟨hdraws.transportKeeps.respond _, rfl, rfl, .inr ⟨rfl, rfl⟩, hanswer⟩

end Sys2Proof.Machine
end

section
/-! The step (R12, R150): which operation it runs, that the engine's own step never stops in a good state, and that
every operation has a meaning. O43 to O45 and O57. -/

namespace Sys2Proof.Machine

variable {s t u : State} {i : Instr}

/-! ### The choice of the step -/

theorem step_of_choose_run (h : choose s = .run i u) : step s = exec i u := by rw [step, h]

theorem takeTurn_eq {x : Turn} {rest : List Turn} (hpin : s.env.resetPin = false) (h : s.env.agenda = x :: rest) :
    takeTurn s = { s with env := { s.env with agenda := rest } } := by
  rw [takeTurn, h, ← hpin]
  rfl

/-- With nothing listed there is no turn to take up. -/
theorem takeTurn_eq_self (hpin : s.env.resetPin = false) (h : s.env.agenda = []) : takeTurn s = s := by
  have henv : { s.env with agenda := s.env.agenda.tail, resetPin := false } = s.env := by
    rw [h, ← hpin, List.tail_nil, ← h]
  exact congrArg (fun e => { s with env := e }) henv

theorem choose_line {bs : List Byte} {rest : List Turn} (hpin : s.env.resetPin = false)
    (h : s.env.agenda = .line bs :: rest) :
    choose s = chooseLine bs { s with env := { s.env with agenda := rest } } := by
  rw [← takeTurn_eq hpin h, choose, hpin, if_neg Bool.false_ne_true, h]

theorem choose_offer {rest : List Turn} (hpin : s.env.resetPin = false) (h : s.env.agenda = .offer i :: rest) :
    choose s = .run i { s with env := { s.env with agenda := rest } } := by
  rw [← takeTurn_eq hpin h, choose, hpin, if_neg Bool.false_ne_true, h]

/-- The engine moves, on its own turn or with none listed: `u` is the state with the turn taken up. -/
def EngineToMove (s u : State) : Prop :=
  s.env.agenda = [] ∧ u = s ∨
    ∃ rest, s.env.agenda = .engine :: rest ∧ u = { s with env := { s.env with agenda := rest } }

theorem choose_engine (hpin : s.env.resetPin = false) (h : EngineToMove s u) : choose s = chooseEngine u := by
  rw [choose, hpin, if_neg Bool.false_ne_true]
  obtain ⟨hagenda, rfl⟩ | ⟨rest, hagenda, rfl⟩ := h
  · rw [hagenda]
    exact congrArg chooseEngine (takeTurn_eq_self hpin hagenda)
  · rw [← takeTurn_eq hpin hagenda, hagenda]

theorem EngineToMove.ses (h : EngineToMove s u) : u.ses = s.ses := by
  obtain ⟨-, rfl⟩ | ⟨rest, -, rfl⟩ := h <;> rfl

/-- Settles O43: the line decoded, the operation offered. -/
theorem stepRunsTheOperationThatIsNext : Obligations.StepRunsTheOperationThatIsNext := by
  refine fun s rest hpin => ⟨fun bs i h hdecode => ?_, fun i h => step_of_choose_run (choose_offer hpin h),
    fun bs e h hdecode => ?_⟩
  · exact step_of_choose_run (by rw [choose_line hpin h, chooseLine, hdecode])
  · rw [step, choose_line hpin h, chooseLine, hdecode]

/-! ### The engine's step -/

/-- R156: the response read answers at most one byte. -/
theorem rxRead_one_length_le {k : ReadUse} {d : Rat} {r : List Byte} (h : rxRead k 1 d s = (some r, t)) :
    r.length ≤ 1 := by
  obtain ⟨e, -, -, -, hread | ⟨bs, hread⟩⟩ := rxRead_cases k 1 d s
  · cases hread.symm.trans h
  · cases hread.symm.trans h
    exact List.length_take_le _ _

/-- R156: the response read that answers the bytes of a class selects the item of the class. -/
theorem chooseEngine_wait_answer {a : Response} (hphase : u.ses.phase = .wait)
    (hwf : a.lineItem.wellFormed t.par = true) (h : rxRead .response 1 u.cfg.respTimeout u = (some a.answer, t)) : chooseEngine u = .run a.lineItem t := by
  rw [chooseEngine, hphase]
  simp only [chooseResponse, h, chooseLine, decode_answer hwf]

/-- R156: whatever bytes the response read answers are those of a class. -/
theorem chooseEngine_wait_some {r : List Byte} (hphase : u.ses.phase = .wait)
    (h : rxRead .response 1 u.cfg.respTimeout u = (some r, t)) :
    ∃ a : Response, a.lineItem.wellFormed t.par = true ∧ a.answer = r ∧ chooseEngine u = .run a.lineItem t := by
  obtain ⟨a, hwf, rfl⟩ := exists_answer_eq t.par (rxRead_one_length_le h)
  exact ⟨a, hwf, rfl, chooseEngine_wait_answer hphase hwf h⟩

/-- R178: the response read that fails. -/
theorem chooseEngine_wait_none (hphase : u.ses.phase = .wait)
    (h : rxRead .response 1 u.cfg.respTimeout u = (none, t)) : chooseEngine u = .run (.eFault .rxRead) t := by
  rw [chooseEngine, hphase]
  simp only [chooseResponse, h]

/-- Settles O44: the phases one by one. -/
theorem engineTakesTheEnabledStep : Obligations.EngineTakesTheEnabledStep := by
  intro s u hpin hturn
  have hchoose := choose_engine hpin hturn
  have hses := EngineToMove.ses hturn
  have hengine : ∀ p, s.ses.phase = p → u.ses.phase = p := fun p hp => (congrArg Session.phase hses).trans hp
  refine ⟨fun h => ?_, fun h => ?_, fun h => ⟨(drawRandom u).1, ?_⟩, fun h => ?_, fun h => ?_,
    fun h => ⟨fun t hread => ?_, fun r t hread => ?_⟩⟩
  · have hidle : chooseEngine u = .idle u := by
      obtain h | h := h <;> rw [chooseEngine, hengine _ h]
    rw [step, hchoose, hidle]
  · exact step_of_choose_run (by rw [hchoose, chooseEngine, hengine _ h])
  · exact step_of_choose_run (by rw [hchoose, chooseEngine, hengine _ h])
  · exact step_of_choose_run (by rw [hchoose, chooseEngine, hengine _ h])
  · exact step_of_choose_run (by rw [hchoose, chooseEngine, hengine _ h])
  · exact step_of_choose_run (by rw [hchoose, chooseEngine_wait_none (hengine _ h) hread])
  · obtain ⟨a, hwf, rfl, hrun⟩ := chooseEngine_wait_some (hengine _ h) hread
    exact ⟨a.lineItem, decode_answer hwf, step_of_choose_run (hchoose.trans hrun)⟩

/-- In a good state the block at `CURSOR` of an attempt exists. -/
theorem State.Good.exists_block (h : s.Good) (hphase : s.ses.phase = .send) : ∃ p, s.block? s.ses.cursor = some p := by
  have hcursor := h.session.attempting_cursor (congrArg Phase.attempting hphase)
  have hlen : s.ses.cursor < s.blk.length := by
    rwa [h.session.blk_length (Phase.busy_ne_idle (congrArg Phase.busy hphase))]
  exact ⟨_, (if_pos hcursor).trans (List.getElem?_eq_getElem hlen)⟩

theorem Phase.idle_or_done_of_not_busy {p : Phase} (h : p.busy = false) : p = .idle ∨ p = .done := by
  revert h
  cases p <;> decide

/-- R150: in a running session in a good state, the engine's step is one of the engine's moves; with no turn listed and
no reset it leaves it so. -/
theorem engine_step_of_busy (hgood : s.Good) (hbusy : s.busy = true) (hpin : s.env.resetPin = false)
    (hagenda : s.env.agenda = []) :
    ∃ i u t, Chosen s u ∧ u.env.agenda = [] ∧ u.env.resetPin = false ∧ step s = .next t ∧ EngineEffect u i t := by
  have hchoose : choose s = chooseEngine s := choose_engine hpin (.inl ⟨hagenda, rfl⟩)
  have hmove : ∀ {i u t}, chooseEngine s = .run i u → u.env.agenda = s.env.agenda → u.env.resetPin = s.env.resetPin →
      exec i u = .next t → EngineEffect u i t →
      ∃ i u t, Chosen s u ∧ u.env.agenda = [] ∧ u.env.resetPin = false ∧ step s = .next t ∧ EngineEffect u i t := by
    intro i u t hrun hagenda' hpin' hexec heff
    have hrun' := hchoose.trans hrun
    exact ⟨i, u, t, choose_cases (.inl hrun'), hagenda'.trans hagenda, hpin'.trans hpin,
      (step_of_choose_run hrun').trans hexec, heff⟩
  cases hphase : s.ses.phase with
  | idle => exact absurd hphase (Phase.busy_ne_idle hbusy)
  | done => exact absurd ((congrArg Phase.busy hphase).symm.trans hbusy) Bool.false_ne_true
  | send =>
    obtain ⟨p, hp⟩ := hgood.exists_block hphase
    exact hmove (by rw [chooseEngine, hphase]) rfl rfl (exec_eSend hphase hp) (.of_send hphase hp)
  | wait =>
    obtain ⟨⟨-, hses, -, -, -, -, -, hagenda', hpin'⟩, -⟩ := rxRead_keeps .response 1 s.cfg.respTimeout s
    cases hread : rxRead .response 1 s.cfg.respTimeout s with
    | mk r u =>
      rw [hread] at hses hagenda' hpin'
      have hphase' : u.ses.phase = .wait := (congrArg Session.phase hses).trans hphase
      cases r with
      | none =>
        have hexec : exec (.eFault .rxRead) u = .next (takeFault .rxRead (elapse u)) :=
          exec_eFault (by simp [beforeFault, hphase'])
        exact hmove (chooseEngine_wait_none hphase hread) hagenda' hpin' hexec (exec_engineStep_effect hexec (.inl rfl))
      | some bs =>
        obtain ⟨a, hwf, -, hrun⟩ := chooseEngine_wait_some hphase hread
        exact hmove hrun hagenda' hpin' (exec_response hphase' hwf).1 (.of_response a hphase' (.inl rfl))
  | backoff =>
    obtain ⟨e, he, hdraws, -⟩ := drawRandom_env s
    have hphase' : (drawRandom s).2.ses.phase = .backoff := by rw [he]; exact hphase
    exact hmove (by rw [chooseEngine, hphase]) (by rw [he]; exact hdraws.agenda) (by rw [he]; exact hdraws.resetPin)
      (exec_eBackoff _ hphase') (EngineMove.backoff _ hphase').effect
  | pace =>
    exact hmove (by rw [chooseEngine, hphase]) rfl rfl (exec_ePace hphase) (EngineMove.pace hphase).effect
  | drain => exact hmove (by rw [chooseEngine, hphase]) rfl rfl (exec_eDrain hphase) (.of_drain hphase)

/-- In `IDLE` and `DONE` the engine's step does nothing (R262). -/
theorem engine_step_of_not_busy (hbusy : s.busy = false) (hpin : s.env.resetPin = false) (hagenda : s.env.agenda = []) :
    step s = .next s :=
  (engineTakesTheEnabledStep s s hpin (.inl ⟨hagenda, rfl⟩)).1 (Phase.idle_or_done_of_not_busy hbusy)

/-- Settles O45: the engine moves in a running session, and waits in `IDLE` and `DONE`. -/
theorem engineNeverStops : Obligations.EngineNeverStops := by
  intro s hgood hpin hagenda
  cases hbusy : s.busy with
  | true =>
    obtain ⟨i, u, t, -, -, -, hstep, -⟩ := engine_step_of_busy hgood hbusy hpin hagenda
    exact ⟨t, hstep⟩
  | false => exact ⟨s, engine_step_of_not_busy hbusy hpin hagenda⟩

/-! ### Refusals -/

/-- An operation is refused as a step that is not enabled, or for an operand outside its domain (log entry 11). -/
theorem exec_refused_cases {r : Refusal} (h : exec i s = .refused r) :
    (∃ p, r = .notEnabled p) ∨ r = .operandOutOfDomain ∧ i.wellFormed s.par = false := by
  cases i
  case frame | ack | nak | timeout | checksum | buildFrame | buildFrameRaw | frameOf | hReset | hCfg | hStart |
      hStatus | hResult | rxClear =>
    simp only [exec, execFrame, execAck, execNak, execTimeout, execChecksum, execBuildFrame, execBuildFrameRaw,
      execFrameOf, execHReset, execHCfg, execHStart, execHStatus, execHResult, execRxClear] at h
    repeat' split at h
    all_goals cases h
  case eStart | eSend | eRespAck | eRespNak | eRespTimeout | eBackoff | ePace | eDrain | eFault =>
    simp only [exec, execEStart, execESend, execERespAck, execERespNak, execERespTimeout, execEBackoff, execEPace,
      execEDrain, execEFault] at h
    repeat' split at h
    all_goals cases h <;> exact .inl ⟨_, rfl⟩
  case other | nblkOf | chunk | widx | txWrite | rxRead =>
    simp only [exec, execOther, execNblkOf, execChunk, execWidx, execTxWrite, execRxRead] at h
    repeat' split at h
    all_goals cases h <;> exact .inr ⟨rfl, Bool.eq_false_iff.mpr ‹_›⟩
  case pad g =>
    simp only [exec, execPad] at h
    split at h <;> cases h
    exact .inr ⟨rfl, decide_eq_false ‹_›⟩
  case eRespOther b =>
    simp only [exec, execERespOther] at h
    split at h
    · split at h <;> cases h
      exact .inl ⟨_, rfl⟩
    · cases h
      exact .inr ⟨rfl, Bool.eq_false_iff.mpr ‹_›⟩
  case hLoad l =>
    rw [exec, execHLoad.eq_def] at h
    split at h
    · cases h
    · cases l with
      | whole bs =>
        simp only at h
        split at h <;> cases h
        exact .inr ⟨rfl, decide_eq_false ‹_›⟩
      | byte a b =>
        simp only at h
        split at h <;> cases h
      | length n => cases h

/-- Settles O57: the two refusals an operation can meet, neither of them for want of a model. -/
theorem everyOperationHasAMeaning : Obligations.EveryOperationHasAMeaning := by
  refine fun i s => ⟨fun m h => ?_, fun hwf h => ?_⟩
  · obtain ⟨p, hp⟩ | ⟨hp, -⟩ := exec_refused_cases h <;> cases hp
  · obtain ⟨p, hp⟩ | ⟨-, hill⟩ := exec_refused_cases h
    · cases hp
    · exact absurd (hwf.symm.trans hill) (by decide)

end Sys2Proof.Machine
end

section
/-! Every session ends (section 6 of 41_engine.md): a bound on the steps that are left, which every engine step lowers.
O58. -/

namespace Sys2Proof.Machine

variable {s t u : State} {i : Instr}

/-! ### The steps that are left -/

/-- The attempts that are left if every answer is a negative signal or the last ACK possible: `RETRY_CEILING + 1` for
each block not yet acknowledged, less those that block `CURSOR` has used up. -/
def State.attemptsLeft (s : State) : Nat :=
  (s.ses.nblk - s.ses.cursor) * (s.cfg.retryCeiling + 1) - s.ses.rpt

/-- A bound on the engine steps that are left: three an attempt, and one for the trailing read. -/
def State.stepsLeft (s : State) : Nat :=
  match s.ses.phase with
  | .idle => 0
  | .send => 3 * s.attemptsLeft + 1
  | .wait => 3 * s.attemptsLeft
  | .backoff => 3 * s.attemptsLeft + 2
  | .pace => 3 * s.attemptsLeft + 2
  | .drain => 1
  | .done => 0

theorem attemptsLeft_congr (hses : t.ses = s.ses) (hcfg : t.cfg = s.cfg) : t.attemptsLeft = s.attemptsLeft := by
  rw [State.attemptsLeft, State.attemptsLeft, hses, hcfg]

theorem stepsLeft_congr (hses : t.ses = s.ses) (hcfg : t.cfg = s.cfg) : t.stepsLeft = s.stepsLeft := by
  rw [State.stepsLeft, State.stepsLeft, hses, attemptsLeft_congr hses hcfg]

/-- A block not yet acknowledged is worth `RETRY_CEILING + 1` attempts. -/
theorem blocksLeft_mul {n c k : Nat} (h : c < n) : (n - c) * (k + 1) = (n - (c + 1)) * (k + 1) + (k + 1) := by
  rw [← Nat.succ_mul]
  congr 1
  omega

/-- While block `CURSOR` is attempted, an attempt is left, and an acknowledgment saves one at least. -/
theorem State.SessionOk.attemptsLeft (h : s.SessionOk) (hphase : s.ses.phase.attempting = true) :
    (s.ses.nblk - (s.ses.cursor + 1)) * (s.cfg.retryCeiling + 1) + 1 ≤ s.attemptsLeft := by
  have hrpt := h.attempting_rpt hphase
  have hblocks := blocksLeft_mul (k := s.cfg.retryCeiling) (h.attempting_cursor hphase)
  rw [State.attemptsLeft]
  omega

/-- In a running session a step is left. -/
theorem State.SessionOk.stepsLeft_pos (h : s.SessionOk) (hbusy : s.busy = true) : 0 < s.stepsLeft := by
  unfold State.stepsLeft
  cases hphase : s.ses.phase <;> simp only
  case idle => exact absurd hphase (Phase.busy_ne_idle hbusy)
  case done => exact absurd ((congrArg Phase.busy hphase).symm.trans hbusy) Bool.false_ne_true
  case wait =>
    have hleft := h.attemptsLeft (congrArg Phase.attempting hphase)
    omega
  all_goals omega

/-- Every engine step lowers the bound. -/
theorem EngineEffect.stepsLeft_lt (heff : EngineEffect s i t) (h : s.SessionOk) : t.stepsLeft < s.stepsLeft := by
  cases heff with
  | fault x e op evs ps ws htime hbusy hevs hi => exact h.stepsLeft_pos hbusy
  | send x e p htime hphase hp =>
    simp only [State.stepsLeft, hphase]
    exact Nat.lt_succ_self _
  | ack x e htime hphase hi =>
    have hleft := h.attemptsLeft (congrArg Phase.attempting hphase)
    simp only [State.stepsLeft, hphase]
    show 3 * ((s.ses.nblk - (s.ses.cursor + 1)) * (s.cfg.retryCeiling + 1) - 0) + 2 < _
    omega
  | abort x e r htime hphase hr hi hceiling =>
    have hleft := h.attemptsLeft (congrArg Phase.attempting hphase)
    simp only [State.stepsLeft, hphase]
    show 1 < _
    omega
  | retry x e r htime hphase hr hi hceiling =>
    have hleft := h.attemptsLeft (congrArg Phase.attempting hphase)
    simp only [State.stepsLeft, hphase]
    show 3 * ((s.ses.nblk - s.ses.cursor) * (s.cfg.retryCeiling + 1) - (s.ses.rpt + 1)) + 2 < _
    rw [State.attemptsLeft] at hleft ⊢
    omega
  | backoff x e u htime hphase =>
    simp only [State.stepsLeft, hphase]
    exact Nat.lt_succ_self _
  | complete x e htime hphase hlast =>
    simp only [State.stepsLeft, hphase]
    exact Nat.lt_add_left _ Nat.one_lt_two
  | nextBlock x e htime hphase hmore =>
    simp only [State.stepsLeft, hphase]
    exact Nat.lt_succ_self _
  | drain x e bs htime hphase => exact h.stepsLeft_pos (congrArg Phase.busy hphase)

/-- Section 6 of 41_engine.md: at most three steps for each of `NBLK * (RETRY_CEILING + 1)` attempts, and one more. -/
theorem State.SessionOk.stepsLeft_le (h : s.SessionOk) :
    s.stepsLeft ≤ 3 * (s.ses.nblk * (s.cfg.retryCeiling + 1)) + 1 := by
  have hblocks : (s.ses.nblk - s.ses.cursor) * (s.cfg.retryCeiling + 1) + s.ses.cursor * (s.cfg.retryCeiling + 1) =
      s.ses.nblk * (s.cfg.retryCeiling + 1) := by
    rw [← Nat.add_mul, Nat.sub_add_cancel h.cursor_le]
  unfold State.stepsLeft
  cases hphase : s.ses.phase <;> simp only [State.attemptsLeft]
  case backoff =>
    have hrpt := h.backoff_rpt hphase
    have hleft := h.attemptsLeft (congrArg Phase.attempting hphase)
    rw [State.attemptsLeft] at hleft
    omega
  case pace =>
    obtain ⟨-, hcursor⟩ := h.pace hphase
    have hone : 1 ≤ s.ses.cursor * (s.cfg.retryCeiling + 1) := Nat.mul_pos hcursor (Nat.succ_pos _)
    omega
  all_goals omega

/-! ### Running to the end -/

/-- The engine does not return to `IDLE`. -/
theorem EngineEffect.ne_idle (h : EngineEffect s i t) : t.ses.phase ≠ .idle := by
  cases h <;> nofun

/-- Left to itself, the engine reaches `DONE` in as many steps as are left, and stays there. -/
theorem run_reaches_done (n : Nat) (s : State) (hgood : s.Good) (hpin : s.env.resetPin = false)
    (hagenda : s.env.agenda = []) (hphase : s.ses.phase ≠ .idle) (hn : s.stepsLeft ≤ n) :
    ∃ t, Host.Core.run Sys2Proof.core n s = .next t ∧ t.ses.phase = .done := by
  induction n generalizing s with
  | zero =>
    refine ⟨s, rfl, (Phase.idle_or_done_of_not_busy ?_).resolve_left hphase⟩
    exact Bool.eq_false_iff.mpr fun hbusy => absurd (hgood.session.stepsLeft_pos hbusy) (by omega)
  | succ n ih =>
    cases hbusy : s.busy with
    | true =>
      obtain ⟨i, u, t, hchosen, hagenda', hpin', hstep, heff⟩ := engine_step_of_busy hgood hbusy hpin hagenda
      have hlt := heff.stepsLeft_lt (hchosen.good hgood).session
      rw [stepsLeft_congr hchosen.ses hchosen.cfg] at hlt
      rw [run_succ_next hstep]
      exact ih t (heff.good (hchosen.good hgood)) (heff.frame.resetPin.trans hpin') (heff.frame.agenda.trans hagenda')
        heff.ne_idle (by omega)
    | false =>
      have hdone := (Phase.idle_or_done_of_not_busy hbusy).resolve_left hphase
      rw [run_succ_next (engine_step_of_not_busy hbusy hpin hagenda)]
      exact ih s hgood hpin hagenda hphase (by rw [State.stepsLeft, hdone]; exact Nat.zero_le n)

/-- Settles O58: the bound of the steps that are left. -/
theorem everySessionEnds : Obligations.EverySessionEnds := fun s hgood hbusy hpin hagenda =>
  run_reaches_done _ s hgood hpin hagenda (Phase.busy_ne_idle hbusy) hgood.session.stepsLeft_le

end Sys2Proof.Machine
end

section
/-! The engine on a transport without faults does what the function `run` of the answers says (R182): each round of the
function is three steps of the engine. O59, and O60 on the function alone. -/

namespace Sys2Proof.Machine

open Relation (ReflTransGen)

variable {s t u : State} {cs ws : List Bool} {rs ts : List (Option (List Byte))}

/-! ### One step, with the inputs it takes -/

/-- A good state in which the engine moves next, with the inputs to come. -/
structure Scripted (s : State) (cs ws : List Bool) (rs ts : List (Option (List Byte))) : Prop where
  good : s.Good
  resetPin : s.env.resetPin = false
  agenda : s.env.agenda = []
  clears : s.env.clears = cs
  writes : s.env.writes = ws
  reads : s.env.reads = rs
  tails : s.env.tails = ts

/-- `t` comes after `s` with the session registers `x`, `ELAPSED` apart, the configuration of before, and `k` writes. -/
structure Advances (s t : State) (x : Session) (k : Nat) : Prop where
  session : ∃ y, t.ses = { x with elapsed := y }
  cfg : t.cfg = s.cfg
  nwrites : nwrites t.hist = nwrites s.hist + k

theorem EngineKeeps.cfg_eq (h : EngineKeeps s t) : t.cfg = s.cfg := h.2.1

theorem EngineKeeps.agenda_eq (h : EngineKeeps s t) : t.env.agenda = s.env.agenda := by
  obtain ⟨-, -, -, -, -, hagenda, -⟩ := h
  exact hagenda

theorem EngineKeeps.resetPin_eq (h : EngineKeeps s t) : t.env.resetPin = s.env.resetPin := by
  obtain ⟨-, -, -, -, -, -, hpin⟩ := h
  exact hpin

theorem EndsIn.advances {x : Session} {evs : List Event} {ps : List Byte} {ss : List (List Byte)}
    (h : EndsIn s t x evs ps ss) : Advances s t x (nwrites evs) :=
  ⟨⟨_, h.session.1⟩, h.spares.keeps.cfg_eq, by rw [h.hist, Machine.nwrites, List.countP_append]; rfl⟩

/-- The next state of a scripted one, from what it keeps and what is left of the inputs. -/
theorem Scripted.next {cs' ws' : List Bool} {rs' ts' : List (Option (List Byte))} (h : Scripted s cs ws rs ts)
    (hstep : step s = .next t) (hagenda : t.env.agenda = s.env.agenda) (hpin : t.env.resetPin = s.env.resetPin)
    (hclears : t.env.clears = cs') (hwrites : t.env.writes = ws') (hreads : t.env.reads = rs')
    (htails : t.env.tails = ts') : Scripted t cs' ws' rs' ts' :=
  ⟨(stepKeepsGood s t h.good hstep).1, hpin.trans h.resetPin, hagenda.trans h.agenda, hclears, hwrites, hreads, htails⟩

theorem Scripted.step_eq (h : Scripted s cs ws rs ts) {i : Instr} (hrun : chooseEngine s = .run i u) :
    step s = exec i u :=
  step_of_choose_run ((choose_engine h.resetPin (.inl ⟨h.agenda, rfl⟩)).trans hrun)

/-- R155, on a transport that clears and writes. -/
theorem Scripted.send (h : Scripted s (true :: cs) (true :: ws) rs ts) (hphase : s.ses.phase = .send) :
    ∃ t, step s = .next t ∧ Scripted t cs ws rs ts ∧ Advances s t { s.ses with phase := .wait } 1 ∧ t.pending = [] := by
  obtain ⟨p, hp⟩ := h.good.exists_block hphase
  obtain ⟨hclears, hwrites, hreads, htails⟩ := elapse_inputs s
  obtain ⟨e, hdraws, hreads', htails', hleft, -, -, hsent⟩ :=
    sendAttempt_of_answers p (hclears.trans h.clears) (hwrites.trans h.writes)
  obtain ⟨hclears', hwrites'⟩ := hleft rfl
  have hend := ((elapse_onlyTimePasses s).setEnv hdraws).frameSent (buildFrame (widx (elapse s).ses.cursor) p)
  have hstep := (h.step_eq (i := .eSend) (u := s) (by rw [chooseEngine, hphase])).trans (exec_eSend hphase hp)
  rw [hsent rfl rfl] at hstep
  exact ⟨_, hstep, h.next hstep hend.spares.keeps.agenda_eq hend.spares.keeps.resetPin_eq hclears' hwrites'
    (hreads'.trans (hreads.trans h.reads)) (htails'.trans (htails.trans h.tails)), hend.advances, hend.pending⟩

/-- A response draws an amount of time and no other input. -/
theorem takeResponse_env (r : Response) (s : State) : (takeResponse r s).env = (elapse s).env := by
  obtain ⟨v, rfl, ⟨-, h⟩ | ⟨-, h⟩⟩ := takeResponse_cases r s <;> rw [h]
  · rfl
  · obtain ⟨-, hneg⟩ | ⟨-, hneg⟩ := negative_cases ((elapse s).emit [.read r]) <;> rw [hneg] <;> rfl

/-- The state in which the response read has taken its answer. -/
theorem rxRead_answer {a : Response} (d : Rat) (hpending : s.pending = [])
    (hreads : s.env.reads = some a.answer :: rs) : rxRead .response 1 d s =
      (some a.answer, ((s.askWait .read d).setEnv { s.env with reads := rs }).setPending []) := by
  have hdraw : drawArrivals .response (s.askWait .read d) =
      (some a.answer, (s.askWait .read d).setEnv { s.env with reads := rs }) := by
    simp only [drawArrivals, drawRead, State.askWait_env, hreads]
  rw [rxRead_of_some 1 hdraw, hpending]
  cases a <;> rfl

theorem Advances.of_eq {x : Session} {k : Nat} (h : Advances u t x k) (hcfg : u.cfg = s.cfg) (hhist : u.hist = s.hist) :
    Advances s t x k :=
  ⟨h.session, h.cfg.trans hcfg, by rw [h.nwrites, hhist]⟩

/-- R156: the response read that meets the answer of class `a`, and then the step of the class. -/
theorem Scripted.wait {a : Response} (h : Scripted s cs ws (some a.answer :: rs) ts) (hphase : s.ses.phase = .wait)
    (hpending : s.pending = []) (hwf : a.lineItem.wellFormed s.par = true) :
    ∃ u, step s = .next (takeResponse a u) ∧ Scripted (takeResponse a u) cs ws rs ts ∧
      u.ses = s.ses ∧ u.cfg = s.cfg ∧ u.hist = s.hist := by
  have hread := rxRead_answer s.cfg.respTimeout hpending h.reads
  generalize hu : ((s.askWait .read s.cfg.respTimeout).setEnv { s.env with reads := rs }).setPending [] = u at hread
  have hphase' : u.ses.phase = .wait := by rw [← hu]; exact hphase
  have hwf' : a.lineItem.wellFormed u.par = true := by rw [← hu]; exact hwf
  have henv : u.env = { s.env with reads := rs } := by rw [← hu]; rfl
  have hstep := (h.step_eq (chooseEngine_wait_answer hphase hwf' hread)).trans (exec_response hphase' hwf').1
  obtain ⟨hclears, hwrites, hreads, htails⟩ := elapse_inputs u
  have hkeeps := elapse_engineKeeps u
  refine ⟨u, hstep, h.next hstep ?_ ?_ ?_ ?_ ?_ ?_, by rw [← hu]; rfl, by rw [← hu]; rfl, by rw [← hu]; rfl⟩ <;>
    rw [takeResponse_env]
  · rw [hkeeps.agenda_eq, henv]
  · rw [hkeeps.resetPin_eq, henv]
  · rw [hclears, henv, h.clears]
  · rw [hwrites, henv, h.writes]
  · rw [hreads, henv]
  · rw [htails, henv, h.tails]

/-- R158: a round that ends in an ACK. -/
theorem Scripted.wait_ack (h : Scripted s cs ws (some Response.ack.answer :: rs) ts) (hphase : s.ses.phase = .wait)
    (hpending : s.pending = []) : ∃ t, step s = .next t ∧ Scripted t cs ws rs ts ∧
      Advances s t { s.ses with cursor := s.ses.cursor + 1, rpt := 0, phase := .pace } 0 := by
  obtain ⟨u, hstep, hnext, hses, hcfg, hhist⟩ := h.wait hphase hpending rfl
  have hend := (elapse_onlyTimePasses u).advance.advances.of_eq hcfg hhist
  rw [hses] at hend
  exact ⟨_, hstep, hnext, hend⟩

/-- R162: the registers after a negative signal. -/
def Session.negated (ceiling : Nat) (x : Session) : Session :=
  if ceiling < x.rpt + 1 then
    { x with rpt := x.rpt + 1, outcome := .aborted, cause := .retryExhausted, phase := .drain }
  else { x with rpt := x.rpt + 1, phase := .backoff }

/-- R159 to R162: a round that ends in a negative signal. -/
theorem Scripted.wait_negative {a : Response} (ha : a ≠ .ack) (h : Scripted s cs ws (some a.answer :: rs) ts)
    (hphase : s.ses.phase = .wait) (hpending : s.pending = []) (hwf : a.lineItem.wellFormed s.par = true) :
    ∃ t, step s = .next t ∧ Scripted t cs ws rs ts ∧ Advances s t (s.ses.negated s.cfg.retryCeiling) 0 := by
  obtain ⟨u, hstep, hnext, hses, hcfg, hhist⟩ := h.wait hphase hpending hwf
  refine ⟨_, hstep, hnext, ?_⟩
  obtain ⟨habort, hretry⟩ := (elapse_onlyTimePasses u).negative a
  rw [takeResponse_of_ne_ack ha, ← negative_emit, Session.negated]
  rw [hses, hcfg] at habort hretry
  split
  case isTrue hceiling => exact (habort hceiling).advances.of_eq hcfg hhist
  case isFalse hceiling => exact (hretry (by omega)).advances.of_eq hcfg hhist

theorem SleepsOnce.advances {k : SleepKind} {d : Rat} {x : Session} (h : SleepsOnce k d s t) (hses : SessionIs s t x) :
    Advances s t x 0 :=
  ⟨⟨_, hses.1⟩, h.keeps.cfg_eq, by rw [h.hist, nwrites_append]; rfl⟩

/-- R170: the backoff after a negative signal. -/
theorem Scripted.backoff (h : Scripted s cs ws rs ts) (hphase : s.ses.phase = .backoff) :
    ∃ t, step s = .next t ∧ Scripted t cs ws rs ts ∧ Advances s t { s.ses with phase := .send } 0 := by
  obtain ⟨e, hdraw, hdraws, hclears, hwrites, hreads, htails⟩ := drawRandom_env s
  obtain ⟨hclears', hwrites', hreads', htails'⟩ := elapse_inputs (s.setEnv e)
  have hrun : chooseEngine s = .run (.eBackoff (drawRandom s).1) (s.setEnv e) := by rw [chooseEngine, hphase, ← hdraw]
  have hstep := (h.step_eq hrun).trans (exec_eBackoff _ hphase)
  have hsleep := (elapse_sleepFor_sleepsOnce .backoff
    (backoffDelay (drawRandom s).1.val (s.setEnv e)) (s.setEnv e)).setPhase .send
  have hses := (elapse_sleepFor_sessionIs .backoff
    (backoffDelay (drawRandom s).1.val (s.setEnv e)) (s.setEnv e)).setPhase .send
  exact ⟨_, hstep, h.next hstep (hsleep.keeps.agenda_eq.trans hdraws.agenda)
    (hsleep.keeps.resetPin_eq.trans hdraws.resetPin) (hclears'.trans (hclears.trans h.clears))
    (hwrites'.trans (hwrites.trans h.writes)) (hreads'.trans (hreads.trans h.reads))
    (htails'.trans (htails.trans h.tails)), (hsleep.advances hses).of_eq rfl rfl⟩

/-- R172: the registers after the pacing wait. -/
def Session.paced (x : Session) : Session :=
  if x.cursor = x.nblk then { x with outcome := .completed, phase := .drain } else { x with phase := .send }

theorem paceEffect_env (s : State) : (paceEffect s).env = s.env := by
  obtain ⟨-, h⟩ | ⟨-, h⟩ := paceEffect_cases s <;> rw [h] <;> rfl

/-- R172: the pacing wait after an ACK. -/
theorem Scripted.pace (h : Scripted s cs ws rs ts) (hphase : s.ses.phase = .pace) :
    ∃ t, step s = .next t ∧ Scripted t cs ws rs ts ∧ Advances s t s.ses.paced 0 := by
  obtain ⟨hclears, hwrites, hreads, htails⟩ := elapse_inputs s
  have hstep := (h.step_eq (i := .ePace) (u := s) (by rw [chooseEngine, hphase])).trans (exec_ePace hphase)
  have hsleep := (elapse_sleepFor_sleepsOnce .pace s.cfg.paceDelay s).paceEffect
  have hses : SessionIs s _ s.ses := elapse_sleepFor_sessionIs .pace s.cfg.paceDelay s
  have henv : (paceEffect ((elapse s).sleepFor .pace s.cfg.paceDelay)).env = (elapse s).env := paceEffect_env _
  refine ⟨_, hstep, h.next hstep hsleep.keeps.agenda_eq hsleep.keeps.resetPin_eq ?_ ?_ ?_ ?_, ?_⟩
  · rw [henv, hclears, h.clears]
  · rw [henv, hwrites, h.writes]
  · rw [henv, hreads, h.reads]
  · rw [henv, htails, h.tails]
  · rw [Session.paced]
    split
    case isTrue hlast => exact hsleep.advances (hses.paceEffect_of_last hlast)
    case isFalse hmore => exact hsleep.advances (hses.paceEffect_of_more hmore)

/-- R182: the values that the function reports of a session. -/
structure State.Reports (t : State) (r : RunResult) : Prop where
  phase : t.ses.phase = .done
  outcome : t.ses.outcome = r.outcome
  cursor : t.ses.cursor = r.cursor
  rpt : t.ses.rpt = r.rpt
  nwrites : Machine.nwrites t.hist = r.nwrites

/-- R175: the trailing read, on a transport that answers it. -/
theorem Scripted.drain {tl : List Byte} (h : Scripted s cs ws rs (some tl :: ts)) (hphase : s.ses.phase = .drain) :
    ∃ t, step s = .next t ∧ t.Reports ⟨s.ses.outcome, s.ses.cursor, s.ses.rpt, nwrites s.hist⟩ := by
  obtain ⟨-, -, -, htails⟩ := elapse_inputs s
  obtain ⟨e, hdraws, -, hstored⟩ := drainTail_of_tails (htails.trans h.tails)
  have hstep := (h.step_eq (i := .eDrain) (u := s) (by rw [chooseEngine, hphase])).trans (exec_eDrain hphase)
  rw [hstored tl rfl] at hstep
  have hend := ((elapse_onlyTimePasses s).setEnv hdraws).tailStored
    (((elapse s).pending ++ tl).take (elapse s).par.trailCap) (((elapse s).pending ++ tl).drop (elapse s).par.trailCap)
  refine ⟨_, hstep, ?_, ?_, ?_, ?_, by rw [hend.hist, nwrites, List.countP_append]; rfl⟩ <;> rw [hend.session.1]

/-! ### The rounds of the function -/

/-- The engine's steps. -/
def StepsTo (s t : State) : Prop := step s = .next t

theorem exists_run_of_steps (h : ReflTransGen StepsTo s t) : ∃ n, Host.Core.run Sys2Proof.core n s = .next t := by
  induction h using ReflTransGen.head_induction_on with
  | refl => exact ⟨0, rfl⟩
  | head hstep _ ih =>
    obtain ⟨n, hn⟩ := ih
    exact ⟨n + 1, (run_succ_next hstep).trans hn⟩

/-- A session that ends has written more frames than it had at the beginning of the round. -/
theorem runFrom_nwrites_gt {nblk c i rpt k : Nat} {as : List Response} {r : RunResult}
    (h : runFrom nblk c i rpt k as = some r) : k < r.nwrites := by
  induction as generalizing i rpt k with
  | nil => cases h
  | cons a as ih =>
    rw [runFrom] at h
    split at h
    · split at h
      · cases h; exact Nat.lt_succ_self k
      · exact (Nat.lt_succ_self k).trans (ih h)
    · split at h
      · cases h; exact Nat.lt_succ_self k
      · exact (Nat.lt_succ_self k).trans (ih h)

theorem Scripted.reports_of_drain {tl : List Byte} {r : RunResult} (h : Scripted s cs ws rs (some tl :: ts))
    (hphase : s.ses.phase = .drain) (hr : ⟨s.ses.outcome, s.ses.cursor, s.ses.rpt, nwrites s.hist⟩ = r) :
    ∃ t, ReflTransGen StepsTo s t ∧ t.Reports r := by
  obtain ⟨t, hstep, hreports⟩ := h.drain hphase
  exact ⟨t, .single hstep, hr ▸ hreports⟩

/-- R182, a round that ends in an ACK: the next block, or the completion. -/
theorem Scripted.round_ack (h : Scripted s (true :: cs) (true :: ws) (some Response.ack.answer :: rs) ts)
    (hphase : s.ses.phase = .send) : ∃ t, ReflTransGen StepsTo s t ∧ Scripted t cs ws rs ts ∧
      Advances s t (Session.paced { s.ses with cursor := s.ses.cursor + 1, rpt := 0 }) 1 := by
  obtain ⟨u, hsend, hscript, hadv, hpending⟩ := h.send hphase
  obtain ⟨y, hses⟩ := hadv.session
  obtain ⟨v, hresp, hscript', hadv'⟩ := hscript.wait_ack (by rw [hses]) hpending
  obtain ⟨y', hses'⟩ := hadv'.session
  obtain ⟨w, hpace, hscript'', hadv''⟩ := hscript'.pace (by rw [hses'])
  obtain ⟨y'', hses''⟩ := hadv''.session
  refine ⟨w, .head hsend (.head hresp (.single hpace)), hscript'', ⟨y'', ?_⟩,
    hadv''.cfg.trans (hadv'.cfg.trans hadv.cfg), by rw [hadv''.nwrites, hadv'.nwrites, hadv.nwrites]⟩
  rw [hses'', hses', hses, Session.paced, Session.paced]
  split <;> rfl

/-- R182, a round that ends in a negative signal above the ceiling: the abort. -/
theorem Scripted.round_abort {a : Response} (ha : a ≠ .ack)
    (h : Scripted s (true :: cs) (true :: ws) (some a.answer :: rs) ts) (hphase : s.ses.phase = .send) (hwf : ∀ q, a.lineItem.wellFormed q = true)
    (hceiling : s.cfg.retryCeiling < s.ses.rpt + 1) : ∃ t, ReflTransGen StepsTo s t ∧ Scripted t cs ws rs ts ∧
      Advances s t { s.ses with
        rpt := s.ses.rpt + 1, outcome := .aborted, cause := .retryExhausted, phase := .drain } 1 := by
  obtain ⟨u, hsend, hscript, hadv, hpending⟩ := h.send hphase
  obtain ⟨y, hses⟩ := hadv.session
  obtain ⟨v, hresp, hscript', hadv'⟩ := hscript.wait_negative ha (by rw [hses]) hpending (hwf _)
  obtain ⟨y', hses'⟩ := hadv'.session
  refine ⟨v, .head hsend (.single hresp), hscript', ⟨y', ?_⟩, hadv'.cfg.trans hadv.cfg,
    by rw [hadv'.nwrites, hadv.nwrites]⟩
  rw [hses', Session.negated, hadv.cfg, hses, if_pos hceiling]

/-- R182, a round that ends in a negative signal within the ceiling: the same block again. -/
theorem Scripted.round_retry {a : Response} (ha : a ≠ .ack)
    (h : Scripted s (true :: cs) (true :: ws) (some a.answer :: rs) ts) (hphase : s.ses.phase = .send) (hwf : ∀ q, a.lineItem.wellFormed q = true)
    (hceiling : ¬s.cfg.retryCeiling < s.ses.rpt + 1) : ∃ t, ReflTransGen StepsTo s t ∧ Scripted t cs ws rs ts ∧
      Advances s t { s.ses with rpt := s.ses.rpt + 1, phase := .send } 1 := by
  obtain ⟨u, hsend, hscript, hadv, hpending⟩ := h.send hphase
  obtain ⟨y, hses⟩ := hadv.session
  obtain ⟨v, hresp, hscript', hadv'⟩ := hscript.wait_negative ha (by rw [hses]) hpending (hwf _)
  obtain ⟨y', hses'⟩ := hadv'.session
  rw [Session.negated, hadv.cfg, hses, if_neg hceiling] at hses'
  obtain ⟨w, hback, hscript'', hadv''⟩ := hscript'.backoff (by rw [hses'])
  obtain ⟨y'', hses''⟩ := hadv''.session
  exact ⟨w, .head hsend (.head hresp (.single hback)), hscript'', ⟨y'', by rw [hses'', hses']⟩,
    hadv''.cfg.trans (hadv'.cfg.trans hadv.cfg), by rw [hadv''.nwrites, hadv'.nwrites, hadv.nwrites]⟩

/-- R182: from `SEND` the engine does what the function says of the answers to come, round by round. -/
theorem Scripted.reaches {tl : List Byte} {as : List Response} {m : Nat} {r : RunResult}
    (h : Scripted s (List.replicate m true ++ cs) (List.replicate m true ++ ws)
      ((as.take m).map (fun a => some a.answer) ++ rs) (some tl :: ts))
    (hphase : s.ses.phase = .send) (hwf : ∀ a ∈ as, ∀ q, a.lineItem.wellFormed q = true)
    (hrun : runFrom s.ses.nblk s.cfg.retryCeiling s.ses.cursor s.ses.rpt (nwrites s.hist) as = some r)
    (hm : r.nwrites = nwrites s.hist + m) : ∃ t, ReflTransGen StepsTo s t ∧ t.Reports r := by
  induction as generalizing s m with
  | nil => cases hrun
  | cons a as ih =>
    obtain ⟨hwfa, hwfas⟩ := List.forall_mem_cons.mp hwf
    have hpos := runFrom_nwrites_gt hrun
    obtain ⟨m, rfl⟩ : ∃ k, m = k + 1 := ⟨m - 1, by omega⟩
    have hgoOn : ∀ {t}, ReflTransGen StepsTo s t → (∃ u, ReflTransGen StepsTo t u ∧ u.Reports r) →
        ∃ u, ReflTransGen StepsTo s u ∧ u.Reports r :=
      fun hsteps ⟨u, hmore, hreports⟩ => ⟨u, hsteps.trans hmore, hreports⟩
    rw [runFrom] at hrun
    by_cases ha : a = .ack
    · subst ha
      obtain ⟨t, hsteps, hscript, ⟨y, hses⟩, hcfg, hwrites⟩ := h.round_ack hphase
      rw [if_pos rfl] at hrun
      rw [Session.paced] at hses
      refine hgoOn hsteps ?_
      by_cases hlast : s.ses.cursor + 1 = s.ses.nblk
      · rw [if_pos hlast] at hrun hses
        exact hscript.reports_of_drain (by rw [hses]) (by rw [hses, hwrites]; exact Option.some.inj hrun)
      · rw [if_neg hlast] at hrun hses
        exact ih hscript (by rw [hses]) hwfas (by rw [hses, hcfg, hwrites]; exact hrun) (by omega)
    · rw [if_neg ha] at hrun
      by_cases hceiling : s.cfg.retryCeiling < s.ses.rpt + 1
      · obtain ⟨t, hsteps, hscript, ⟨y, hses⟩, hcfg, hwrites⟩ := h.round_abort ha hphase hwfa hceiling
        rw [if_pos hceiling] at hrun
        exact hgoOn hsteps
          (hscript.reports_of_drain (by rw [hses]) (by rw [hses, hwrites]; exact Option.some.inj hrun))
      · obtain ⟨t, hsteps, hscript, ⟨y, hses⟩, hcfg, hwrites⟩ := h.round_retry ha hphase hwfa hceiling
        rw [if_neg hceiling] at hrun
        exact hgoOn hsteps
          (ih hscript (by rw [hses]) hwfas (by rw [hses, hcfg, hwrites]; exact hrun) (by omega))

/-- Settles O59: the start, and then the rounds of the function. -/
theorem sessionAgreesWithRun : Obligations.SessionAgreesWithRun := by
  intro s as r cs ws rs ts tl hgood hbusy hpin hagenda hother hrun hclears hwrites hreads htails
  have hstep : step s = .next (startSession { s with env := { s.env with agenda := [] } }) :=
    (step_of_choose_run (choose_offer hpin hagenda)).trans (exec_hStart hbusy)
  have hscript : Scripted (startSession { s with env := { s.env with agenda := [] } }) _ _ _ _ :=
    ⟨(stepKeepsGood _ _ hgood hstep).1, hpin, rfl, hclears, hwrites, hreads, htails⟩
  have hwf : ∀ a ∈ as, ∀ q, a.lineItem.wellFormed q = true := by
    intro a ha q
    cases a with
    | other b => exact (isNoise_iff b).mpr (hother b ha)
    | _ => rfl
  obtain ⟨t, hsteps, hreports⟩ := hscript.reaches rfl hwf hrun (Nat.zero_add _).symm
  obtain ⟨n, hn⟩ := exists_run_of_steps hsteps
  exact ⟨n + 1, t, (run_succ_next hstep).trans hn, hreports.phase, hreports.outcome, hreports.cursor, hreports.rpt,
    hreports.nwrites⟩

/-! ### The function alone -/

/-- R182: an ACK, of the last block or of another. -/
theorem runFrom_ack (n c i rpt k : Nat) (as : List Response) : runFrom n c i rpt k (.ack :: as) =
    if i + 1 = n then some ⟨.completed, i + 1, 0, k + 1⟩ else runFrom n c (i + 1) 0 (k + 1) as := by
  rw [runFrom, if_pos rfl]

/-- R182: a negative signal, above the ceiling or within it. -/
theorem runFrom_nak (n c i rpt k : Nat) (as : List Response) : runFrom n c i rpt k (.nak :: as) =
    if rpt + 1 > c then some ⟨.aborted, i, rpt + 1, k + 1⟩ else runFrom n c i (rpt + 1) (k + 1) as := by
  rw [runFrom, if_neg (by decide)]

/-- One write for each of the `j` blocks that are left. -/
theorem runFrom_replicate_ack {n c i k j : Nat} (hj : 0 < j) (hn : i + j = n) :
    runFrom n c i 0 k (List.replicate j .ack) = some ⟨.completed, n, 0, k + j⟩ := by
  induction j generalizing i k with
  | zero => exact absurd hj (Nat.lt_irrefl 0)
  | succ j ih =>
    rw [List.replicate_succ, runFrom_ack]
    split
    case isTrue hlast =>
      obtain rfl : j = 0 := by omega
      rw [hlast]
    case isFalse hmore =>
      rw [ih (by omega) (by omega), Nat.add_right_comm k 1 j, Nat.add_assoc]

/-- One write for each of the `j` negative signals that are allowed, and one for the signal that is not. -/
theorem runFrom_replicate_nak {n c i rpt k j : Nat} (hc : rpt + j = c) :
    runFrom n c i rpt k (List.replicate (j + 1) .nak) = some ⟨.aborted, i, c + 1, k + j + 1⟩ := by
  induction j generalizing rpt k with
  | zero =>
    rw [List.replicate_succ, runFrom_nak, if_pos (by omega), ← hc]
  | succ j ih =>
    rw [List.replicate_succ, runFrom_nak, if_neg (by omega), ih (by omega), Nat.add_right_comm k 1 j,
      Nat.add_assoc k j 1]

/-- Two writes for each of the `j` blocks that are left. -/
theorem runFrom_replicate_nak_ack {n c i k j : Nat} (hc : 1 ≤ c) (hj : 0 < j) (hn : i + j = n) :
    runFrom n c i 0 k (List.replicate j [Response.nak, Response.ack]).flatten = some ⟨.completed, n, 0, k + 2 * j⟩ := by
  induction j generalizing i k with
  | zero => exact absurd hj (Nat.lt_irrefl 0)
  | succ j ih =>
    rw [List.replicate_succ, List.flatten_cons, List.cons_append, List.cons_append, List.nil_append, runFrom_nak,
      if_neg (by omega), runFrom_ack]
    split
    case isTrue hlast =>
      obtain rfl : j = 0 := by omega
      rw [hlast]
    case isFalse hmore =>
      rw [ih (by omega) (by omega)]
      have hwrites : k + 1 + 1 + 2 * j = k + 2 * (j + 1) := by omega
      rw [hwrites]

/-- Settles O60: each property from block 0, and the fourth by evaluation. -/
theorem runHasTheSourceProperties : Obligations.RunHasTheSourceProperties := by
  refine ⟨fun n c hn => ?_, fun n c _ => ?_, fun n c hn hc => ?_, rfl⟩ <;> rw [runSession]
  · rw [runFrom_replicate_ack hn (Nat.zero_add n), Nat.zero_add]
  · rw [runFrom_replicate_nak (Nat.zero_add c), Nat.zero_add]
  · rw [runFrom_replicate_nak_ack hc hn (Nat.zero_add n), Nat.zero_add]

end Sys2Proof.Machine
end
